-- ==== Sys2Proof/Word.lean ====
section
/-! DEFINITION. The word types of sBPF: 64-bit registers and addresses, 8-bit memory bytes, 64-bit
instruction slots and the fields of a slot (10_state R20, 20_memory R40, 30_encoding R61). -/

namespace Sys2Proof

/-- A 64-bit register value or virtual address (R20, R40). -/
abbrev Word := BitVec 64

/-- One byte of the data space (R40). -/
abbrev Byte := BitVec 8

/-- One 64-bit instruction slot, in the bit numbering of R61. -/
abbrev Slot := BitVec 64

/-- The `immediate` field (R65). -/
abbrev Imm := BitVec 32

/-- The `offset` field (R64). -/
abbrev Offset := BitVec 16

end Sys2Proof
end

