-- ==== Sys2Proof/Config.lean ====
section
/-! DEFINITION. What the spec leaves to the loader, the host or the implementation: the parameters of
00_scope R3 as plain data (State carries them, log 1), and the uninterpreted constants that stand for
what no rule fixes (the host's answers, log 9; unspecified register values, log 10). -/

namespace Sys2Proof

/-- `VERSION` (R2, R3). -/
inductive Version
  | v1
  | v2
deriving DecidableEq, Repr

/-- `HOST_ENDIAN` (R3, R271). -/
inductive Endian
  | little
  | big
deriving DecidableEq, Repr

/-- `MISALIGNED_POLICY` (R3, R49). -/
inductive MisalignedPolicy
  | allow
  | fault
deriving DecidableEq, Repr

/-- The permission of a region (R42). -/
inductive Perm
  | none
  | r
  | rw
deriving DecidableEq, Repr

/-- A region's `SIZE_k` in bytes and `PERM_k` (R42). -/
structure Region where
  size : Nat
  perm : Perm
deriving DecidableEq, Repr

/-- The four regions of R41. Their start addresses are fixed by the source and are not data. -/
structure Regions where
  program : Region
  stack : Region
  heap : Region
  input : Region
deriving DecidableEq, Repr

/-- How a 32-bit result is widened to 64 bits (R103). -/
inductive Ext
  | sext
  | zext
deriving DecidableEq, Repr

/-- The 32-bit mnemonics `ALU32_EXT` is a function of (R3, R103, R172). -/
inductive Alu32Op
  | add32 | sub32 | mul32 | div32 | mod32 | neg32 | or32 | and32 | xor32
  | lsh32 | rsh32 | arsh32 | mov32 | sdiv32 | srem32
deriving DecidableEq, Repr

/-- `ALU32_EXT` (R103) as plain data, one entry for each 32-bit mnemonic. -/
structure Alu32Ext where
  add32 : Ext
  sub32 : Ext
  mul32 : Ext
  div32 : Ext
  mod32 : Ext
  neg32 : Ext
  or32 : Ext
  and32 : Ext
  xor32 : Ext
  lsh32 : Ext
  rsh32 : Ext
  arsh32 : Ext
  mov32 : Ext
  sdiv32 : Ext
  srem32 : Ext
deriving DecidableEq, Repr

/-- The spec's table (R3, R103, R172; 90_conflicts C1; log 16). -/
def Alu32Ext.ofSpec : Alu32Ext where
  add32 := .sext
  sub32 := .sext
  mul32 := .sext
  div32 := .zext
  mod32 := .zext
  neg32 := .zext
  or32 := .zext
  and32 := .zext
  xor32 := .zext
  lsh32 := .zext
  rsh32 := .zext
  arsh32 := .zext
  mov32 := .zext
  sdiv32 := .sext
  srem32 := .sext

/-- What selects the legal rows of the opcode table (R60, R73, R256, R320). -/
structure Isa where
  version : Version
  dynamicStackFrames : Bool
  addStkDst : BitVec 4
  lddwInV1 : Bool
deriving DecidableEq, Repr

/-- The parameters of R3 that a step consults. `functions` is `FUNCTIONS` as key and slot pairs, the
first pair of a key counting (log 20); `syscalls` is the domain of `SYSCALLS`. -/
structure Params where
  isa : Isa
  alu32Ext : Alu32Ext
  hostEndian : Endian
  misaligned : MisalignedPolicy
  program : List Slot
  textVaddr : Word
  regions : Regions
  functions : List (BitVec 32 × Nat)
  syscalls : List (BitVec 32)
  maxCallDepth : Nat
  frameStride : Word
  insnBudget : Option Nat
deriving DecidableEq, Repr

/-- `N_SLOTS` (R3). -/
def Params.nSlots (p : Params) : Nat := p.program.length

/-- Start addresses of the regions (R41). -/
def programStart : Nat := 0x100000000
def stackStart : Nat := 0x200000000
def heapStart : Nat := 0x300000000
def inputStart : Nat := 0x400000000

/-- The constraints R3, R42 and R45 put on the parameters. A loader's duty, tested by no step. -/
def Params.wf (p : Params) : Bool :=
  (!p.isa.dynamicStackFrames || p.isa.version == .v2)
    && p.textVaddr.toNat % 8 == 0
    && decide (programStart ≤ p.textVaddr.toNat)
    && decide (p.textVaddr.toNat + 8 * p.nSlots ≤ programStart + p.regions.program.size)
    && decide (p.regions.program.size ≤ 0x100000000)
    && decide (p.regions.stack.size ≤ 0x100000000)
    && decide (p.regions.heap.size ≤ 0x100000000)
    && decide (p.regions.input.size ≤ 0x100000000)
    && p.functions.all (fun e => decide (e.2 < p.nSlots))
    && decide (1 ≤ p.maxCallDepth)
    && p.frameStride.toNat % 8 == 0

/-- `INIT_SP`'s default (R3, R450): above the first frame with fixed frames, the top of the stack
region with dynamic frames. -/
def Params.defaultInitSp (p : Params) : Word :=
  if p.isa.dynamicStackFrames then BitVec.ofNat 64 (stackStart + p.regions.stack.size)
  else BitVec.ofNat 64 stackStart + p.frameStride

/-- The instruction set selected at reset: v2, no dynamic frames (DESIGN CHOICE, log 2). -/
def Isa.atReset : Isa where
  version := .v2
  dynamicStackFrames := false
  addStkDst := 0
  lddwInV1 := false

/-- The parameters at reset: the spec's value where R3 gives one, else the value log 2 names. No
program is loaded (log 5). -/
def Params.atReset : Params where
  isa := Isa.atReset
  alu32Ext := Alu32Ext.ofSpec
  hostEndian := .little
  misaligned := .fault
  program := []
  textVaddr := 0x100000000
  regions :=
    { program := ⟨4096, .r⟩, stack := ⟨8192, .rw⟩, heap := ⟨4096, .rw⟩, input := ⟨256, .r⟩ }
  functions := []
  syscalls := []
  maxCallDepth := 64
  frameStride := 4096
  insnBudget := none

/-- The argument registers `x[1]` to `x[5]` a host function is given (R293). -/
structure HostArgs where
  a1 : Word
  a2 : Word
  a3 : Word
  a4 : Word
  a5 : Word
deriving DecidableEq, Repr, Inhabited

/-- A host function's answer (R293): `ok(r0', mem')`, with `mem'` given by the bytes it changes
(log 9), or `error(e)`. The spec gives the error value `e` no type (R409: "the host's own value, opaque to
the machine"): that it is 64 bits is the model's choice (DESIGN CHOICE, log 23). -/
inductive HostAnswer
  | ok (r0 : Word) (writes : List (Word × Byte))
  | error (e : Word)
deriving DecidableEq, Repr, Inhabited

/-- What the host answers to the syscall `key` with these arguments and this memory. The relation of
R293 is this function at every `draw`: nothing is known of it (log 9). -/
opaque Config.hostAnswer (draw : Nat) (key : BitVec 32) (args : HostArgs) (mem : List Host.Cell) :
  HostAnswer

/-- Free 64-bit values: the "unspecified values" `x[1]` to `x[5]` hold after a syscall (R293, log 10). -/
opaque Config.freeWord (draw : Nat) : Word

end Sys2Proof
end

