-- ==== Sys2Proof/Machine/State.lean ====
section
/-! DEFINITION. The state of the machine as plain data (10_state), the reasons a run or a step ends
(60_exceptions), and the state at launch with the model's reset parameters (10_state R35, 70_reset R450). -/

namespace Sys2Proof.Machine

/-- The eleven general registers (R20). -/
structure RegFile where
  r0 : Word
  r1 : Word
  r2 : Word
  r3 : Word
  r4 : Word
  r5 : Word
  r6 : Word
  r7 : Word
  r8 : Word
  r9 : Word
  r10 : Word
deriving DecidableEq, Repr

/-- A return frame: what an internal call saves (R31, R291). `ret` is a slot index. -/
structure Frame where
  r6 : Word
  r7 : Word
  r8 : Word
  r9 : Word
  fp : Word
  ret : Int
deriving DecidableEq, Repr

/-- The kind of a data access (R43). -/
inductive Access
  | load
  | store
deriving DecidableEq, Repr

/-- The faults of a run with what each records (R401, R412). Each is raised by `raise` and stands in
`Status.faulted`; `pc` is the index of the faulting instruction. -/
inductive RunFault
  /-- R402: a load or store outside the permitted regions, or misaligned under `MISALIGNED_POLICY = fault`. -/
  | accessViolation (pc : Int) (addr : Word) (size : Nat) (kind : Access)
  /-- R403: a division or remainder with divisor 0. -/
  | divideByZero (pc : Int)
  /-- R404: a signed division or remainder of the most negative value by -1. -/
  | divideOverflow (pc : Int)
  /-- R405: an illegal encoding met at run time, or a `call_imm` key that resolves to nothing. -/
  | unsupportedInstruction (pc : Int)
  /-- R406: a fetch outside the program. -/
  | executionOverrun (pc : Int)
  /-- R407: an internal call at the depth limit. -/
  | callDepthExceeded (pc : Int)
  /-- R408: `call_reg` with a register that holds no slot's address. -/
  | callOutsideTextSegment (pc : Int) (addr : Word)
  /-- R409: the host function answered `error(e)`; that `e` is 64 bits is the model's choice (log 23). -/
  | syscallError (pc : Int) (e : Word)
  /-- R410: the instruction budget is spent. -/
  | exceededMaxInstructions (pc : Int)
deriving DecidableEq, Repr

/-- The run status (R32): `Running`, `Exited(v)` or `Faulted(F, info)`. -/
inductive Status
  | running
  | exited (value : Word)
  | faulted (f : RunFault)
deriving DecidableEq, Repr

/-- The data space as address and byte pairs, in the canonical form `Memory.wf` (Ops.lean): addresses
strictly rising, none of a byte that an unlisted address reads as (log 4). -/
abbrev Memory := List Host.Cell

/-- Why `step` answers no next state. -/
inductive Fault
  /-- Raised by `step` alone, when the run has ended: "once it is anything else no step exists" (R32, R400,
  R419). Safe: nothing can be proved of a step that does not exist. -/
  | runEnded (status : Status)
deriving DecidableEq, Repr

/-- Why the verifier refuses a program (R84, R411). -/
inductive VerifyReason
  /-- `N_SLOTS` is 0. -/
  | emptyProgram
  /-- R72 to R75, R77: the slot does not decode to a well-formed instruction. -/
  | illegalEncoding
  /-- R203: a jump's target lies outside the program. -/
  | jumpOutside
  /-- R203: a jump's target is the second slot of an `lddw`. -/
  | jumpIntoLddw
  /-- R452 (4), R455: a slot `FUNCTIONS` gives is outside the program or the second slot of an `lddw`. -/
  | functionTarget
  /-- R451: `ENTRY_PC` is not a slot of the program. -/
  | entryOutside
deriving DecidableEq, Repr

/-- What the model refuses. -/
inductive Refusal
  /-- An arm of `exec` without a meaning; no arm is left so. Safe. -/
  | notModelled (mnemonic : String)
  /-- Raised by `launch` alone: the verifier refuses the program at this slot, and there is no run (R411).
  Safe: no state is produced. -/
  | verifierError (slot : Nat) (reason : VerifyReason)
deriving DecidableEq, Repr

/-- The state of the machine: the spec's (R20 to R34), the parameters of the run, which no step changes
(R3, log 1), and the model's counter of drawn free values (log 11). -/
structure State where
  /-- `r0` to `r10` (R20). -/
  regs : RegFile
  /-- The slot index of the instruction being executed (R24, log 8). -/
  pc : Int
  /-- The hidden stack pointer (R30). -/
  sp : Word
  /-- The return frames, most recent first (R31). -/
  frames : List Frame
  /-- The run status (R32). -/
  status : Status
  /-- Instructions executed (R33). -/
  meter : Nat
  /-- The data space (R34). -/
  mem : Memory
  /-- The model's own: free values drawn so far (log 11). -/
  draws : Nat
  /-- The parameters of the run (R3, log 1). -/
  params : Params
deriving DecidableEq, Repr

/-- The register file at launch with the model's reset parameters: `x[1]` the start of the input region,
`x[10]` the initial stack pointer (R35); the others 0 (PRESUMED, the family's, log 3). -/
def RegFile.atReset : RegFile where
  r0 := 0
  r1 := 0x400000000
  r2 := 0
  r3 := 0
  r4 := 0
  r5 := 0
  r6 := 0
  r7 := 0
  r8 := 0
  r9 := 0
  r10 := 0x200001000

/-- The machine at launch (R35, R450) with the reset parameters of log 2 and no program loaded (log 5); a
launch gives it with `VERIFY` off (DESIGN CHOICE, log 2). -/
def State.reset : State where
  regs := RegFile.atReset
  pc := 0
  sp := 0x200001000
  frames := []
  status := .running
  meter := 0
  mem := []
  draws := 0
  params := Params.atReset

end Sys2Proof.Machine
end

