-- ==== Sys2Proof/Syntax.lean ====
section
/-! DEFINITION. The syntax of sBPF: register names and the instructions, one constructor for each row
of spec/opcode_table.json, named as its mnemonic in camel case, with the operands the instruction uses
(30_encoding R61 to R65). A written destination is a `Dst`, so that no term names `r10` there (R21, R74). -/

namespace Sys2Proof

/-- The eleven registers (R20); `r10` is the frame pointer `fp`. -/
inductive Reg
  | r0 | r1 | r2 | r3 | r4 | r5 | r6 | r7 | r8 | r9 | r10
deriving DecidableEq, Repr

/-- The registers an instruction may name as a written destination: `r0` to `r9` (R21, R62, R74). -/
inductive Dst
  | r0 | r1 | r2 | r3 | r4 | r5 | r6 | r7 | r8 | r9
deriving DecidableEq, Repr

/-- A destination as a register. -/
def Dst.reg : Dst → Reg
  | .r0 => .r0
  | .r1 => .r1
  | .r2 => .r2
  | .r3 => .r3
  | .r4 => .r4
  | .r5 => .r5
  | .r6 => .r6
  | .r7 => .r7
  | .r8 => .r8
  | .r9 => .r9

/-- The instructions. `d` is the `dst` field as a written destination, `l` the left operand of a jump
and `base` the base register of an address; an immediate or offset is the field as it stands (R64, R65). -/
inductive Instr
  /-- `add32_imm` (R110). -/
  | add32Imm (d : Dst) (imm : Imm)
  /-- `add32_reg` (R111). -/
  | add32Reg (d : Dst) (src : Reg)
  /-- `add64_imm` (R112). -/
  | add64Imm (d : Dst) (imm : Imm)
  /-- `add64_reg` (R113). -/
  | add64Reg (d : Dst) (src : Reg)
  /-- `sub32_imm` (R114). -/
  | sub32Imm (d : Dst) (imm : Imm)
  /-- `sub32_reg` (R115). -/
  | sub32Reg (d : Dst) (src : Reg)
  /-- `sub64_imm` (R116). -/
  | sub64Imm (d : Dst) (imm : Imm)
  /-- `sub64_reg` (R117). -/
  | sub64Reg (d : Dst) (src : Reg)
  /-- `mul32_imm` (R118). -/
  | mul32Imm (d : Dst) (imm : Imm)
  /-- `mul32_reg` (R119). -/
  | mul32Reg (d : Dst) (src : Reg)
  /-- `mul64_imm` (R120). -/
  | mul64Imm (d : Dst) (imm : Imm)
  /-- `mul64_reg` (R121). -/
  | mul64Reg (d : Dst) (src : Reg)
  /-- `div32_imm` (R122). -/
  | div32Imm (d : Dst) (imm : Imm)
  /-- `div32_reg` (R123). -/
  | div32Reg (d : Dst) (src : Reg)
  /-- `div64_imm` (R124). -/
  | div64Imm (d : Dst) (imm : Imm)
  /-- `div64_reg` (R125). -/
  | div64Reg (d : Dst) (src : Reg)
  /-- `mod32_imm` (R126). -/
  | mod32Imm (d : Dst) (imm : Imm)
  /-- `mod32_reg` (R127). -/
  | mod32Reg (d : Dst) (src : Reg)
  /-- `mod64_imm` (R128). -/
  | mod64Imm (d : Dst) (imm : Imm)
  /-- `mod64_reg` (R129). -/
  | mod64Reg (d : Dst) (src : Reg)
  /-- `neg32` (R130). -/
  | neg32 (d : Dst)
  /-- `neg64` (R131). -/
  | neg64 (d : Dst)
  /-- `or32_imm` (R132). -/
  | or32Imm (d : Dst) (imm : Imm)
  /-- `or32_reg` (R133). -/
  | or32Reg (d : Dst) (src : Reg)
  /-- `or64_imm` (R134). -/
  | or64Imm (d : Dst) (imm : Imm)
  /-- `or64_reg` (R135). -/
  | or64Reg (d : Dst) (src : Reg)
  /-- `and32_imm` (R136). -/
  | and32Imm (d : Dst) (imm : Imm)
  /-- `and32_reg` (R137). -/
  | and32Reg (d : Dst) (src : Reg)
  /-- `and64_imm` (R138). -/
  | and64Imm (d : Dst) (imm : Imm)
  /-- `and64_reg` (R139). -/
  | and64Reg (d : Dst) (src : Reg)
  /-- `xor32_imm` (R140). -/
  | xor32Imm (d : Dst) (imm : Imm)
  /-- `xor32_reg` (R141). -/
  | xor32Reg (d : Dst) (src : Reg)
  /-- `xor64_imm` (R142). -/
  | xor64Imm (d : Dst) (imm : Imm)
  /-- `xor64_reg` (R143). -/
  | xor64Reg (d : Dst) (src : Reg)
  /-- `lsh32_imm` (R144). -/
  | lsh32Imm (d : Dst) (imm : Imm)
  /-- `lsh32_reg` (R145). -/
  | lsh32Reg (d : Dst) (src : Reg)
  /-- `lsh64_imm` (R146). -/
  | lsh64Imm (d : Dst) (imm : Imm)
  /-- `lsh64_reg` (R147). -/
  | lsh64Reg (d : Dst) (src : Reg)
  /-- `rsh32_imm` (R148). -/
  | rsh32Imm (d : Dst) (imm : Imm)
  /-- `rsh32_reg` (R149). -/
  | rsh32Reg (d : Dst) (src : Reg)
  /-- `rsh64_imm` (R150). -/
  | rsh64Imm (d : Dst) (imm : Imm)
  /-- `rsh64_reg` (R151). -/
  | rsh64Reg (d : Dst) (src : Reg)
  /-- `arsh32_imm` (R152). -/
  | arsh32Imm (d : Dst) (imm : Imm)
  /-- `arsh32_reg` (R153). -/
  | arsh32Reg (d : Dst) (src : Reg)
  /-- `arsh64_imm` (R154). -/
  | arsh64Imm (d : Dst) (imm : Imm)
  /-- `arsh64_reg` (R155). -/
  | arsh64Reg (d : Dst) (src : Reg)
  /-- `mov32_imm` (R156). -/
  | mov32Imm (d : Dst) (imm : Imm)
  /-- `mov32_reg` (R157). -/
  | mov32Reg (d : Dst) (src : Reg)
  /-- `mov64_imm` (R158). -/
  | mov64Imm (d : Dst) (imm : Imm)
  /-- `mov64_reg` (R159). -/
  | mov64Reg (d : Dst) (src : Reg)
  /-- `hor64_imm` (R160). -/
  | hor64Imm (d : Dst) (imm : Imm)
  /-- `uhmul64_imm` (R173). -/
  | uhmul64Imm (d : Dst) (imm : Imm)
  /-- `uhmul64_reg` (R174). -/
  | uhmul64Reg (d : Dst) (src : Reg)
  /-- `shmul64_imm` (R175). -/
  | shmul64Imm (d : Dst) (imm : Imm)
  /-- `shmul64_reg` (R176). -/
  | shmul64Reg (d : Dst) (src : Reg)
  /-- `sdiv32_imm` (R177). -/
  | sdiv32Imm (d : Dst) (imm : Imm)
  /-- `sdiv32_reg` (R178). -/
  | sdiv32Reg (d : Dst) (src : Reg)
  /-- `sdiv64_imm` (R179). -/
  | sdiv64Imm (d : Dst) (imm : Imm)
  /-- `sdiv64_reg` (R180). -/
  | sdiv64Reg (d : Dst) (src : Reg)
  /-- `srem32_imm` (R181). -/
  | srem32Imm (d : Dst) (imm : Imm)
  /-- `srem32_reg` (R182). -/
  | srem32Reg (d : Dst) (src : Reg)
  /-- `srem64_imm` (R183). -/
  | srem64Imm (d : Dst) (imm : Imm)
  /-- `srem64_reg` (R184). -/
  | srem64Reg (d : Dst) (src : Reg)
  /-- `ja` (R204). -/
  | ja (off : Offset)
  /-- `jeq_imm` (R205). -/
  | jeqImm (l : Reg) (imm : Imm) (off : Offset)
  /-- `jeq_reg` (R206). -/
  | jeqReg (l : Reg) (r : Reg) (off : Offset)
  /-- `jne_imm` (R207). -/
  | jneImm (l : Reg) (imm : Imm) (off : Offset)
  /-- `jne_reg` (R208). -/
  | jneReg (l : Reg) (r : Reg) (off : Offset)
  /-- `jgt_imm` (R209). -/
  | jgtImm (l : Reg) (imm : Imm) (off : Offset)
  /-- `jgt_reg` (R210). -/
  | jgtReg (l : Reg) (r : Reg) (off : Offset)
  /-- `jge_imm` (R211). -/
  | jgeImm (l : Reg) (imm : Imm) (off : Offset)
  /-- `jge_reg` (R212). -/
  | jgeReg (l : Reg) (r : Reg) (off : Offset)
  /-- `jlt_imm` (R213). -/
  | jltImm (l : Reg) (imm : Imm) (off : Offset)
  /-- `jlt_reg` (R214). -/
  | jltReg (l : Reg) (r : Reg) (off : Offset)
  /-- `jle_imm` (R215). -/
  | jleImm (l : Reg) (imm : Imm) (off : Offset)
  /-- `jle_reg` (R216). -/
  | jleReg (l : Reg) (r : Reg) (off : Offset)
  /-- `jsgt_imm` (R217). -/
  | jsgtImm (l : Reg) (imm : Imm) (off : Offset)
  /-- `jsgt_reg` (R218). -/
  | jsgtReg (l : Reg) (r : Reg) (off : Offset)
  /-- `jsge_imm` (R219). -/
  | jsgeImm (l : Reg) (imm : Imm) (off : Offset)
  /-- `jsge_reg` (R220). -/
  | jsgeReg (l : Reg) (r : Reg) (off : Offset)
  /-- `jslt_imm` (R221). -/
  | jsltImm (l : Reg) (imm : Imm) (off : Offset)
  /-- `jslt_reg` (R222). -/
  | jsltReg (l : Reg) (r : Reg) (off : Offset)
  /-- `jsle_imm` (R223). -/
  | jsleImm (l : Reg) (imm : Imm) (off : Offset)
  /-- `jsle_reg` (R224). -/
  | jsleReg (l : Reg) (r : Reg) (off : Offset)
  /-- `jset_imm` (R225). -/
  | jsetImm (l : Reg) (imm : Imm) (off : Offset)
  /-- `jset_reg` (R226). -/
  | jsetReg (l : Reg) (r : Reg) (off : Offset)
  /-- `ldxb` (R244). -/
  | ldxb (d : Dst) (base : Reg) (off : Offset)
  /-- `ldxh` (R245). -/
  | ldxh (d : Dst) (base : Reg) (off : Offset)
  /-- `ldxw` (R246). -/
  | ldxw (d : Dst) (base : Reg) (off : Offset)
  /-- `ldxdw` (R247). -/
  | ldxdw (d : Dst) (base : Reg) (off : Offset)
  /-- `stb_imm` (R248). -/
  | stbImm (base : Reg) (off : Offset) (imm : Imm)
  /-- `sth_imm` (R249). -/
  | sthImm (base : Reg) (off : Offset) (imm : Imm)
  /-- `stw_imm` (R250). -/
  | stwImm (base : Reg) (off : Offset) (imm : Imm)
  /-- `stdw_imm` (R251). -/
  | stdwImm (base : Reg) (off : Offset) (imm : Imm)
  /-- `stb_reg` (R252). -/
  | stbReg (base : Reg) (off : Offset) (src : Reg)
  /-- `sth_reg` (R253). -/
  | sthReg (base : Reg) (off : Offset) (src : Reg)
  /-- `stw_reg` (R254). -/
  | stwReg (base : Reg) (off : Offset) (src : Reg)
  /-- `stdw_reg` (R255). -/
  | stdwReg (base : Reg) (off : Offset) (src : Reg)
  /-- `lddw` (R256). -/
  | lddw (d : Dst) (value : Word)
  /-- `le16` (R272). -/
  | le16 (d : Dst)
  /-- `le32` (R273). -/
  | le32 (d : Dst)
  /-- `le64` (R274). -/
  | le64 (d : Dst)
  /-- `be16` (R275). -/
  | be16 (d : Dst)
  /-- `be32` (R276). -/
  | be32 (d : Dst)
  /-- `be64` (R277). -/
  | be64 (d : Dst)
  /-- `call_imm` (R297). -/
  | callImm (sel : BitVec 4) (key : BitVec 32)
  /-- `call_reg` (R298). -/
  | callReg (r : Reg)
  /-- `exit` (R299). -/
  | exit
  /-- `add_stk` (R320). -/
  | addStk (imm : Imm)
deriving DecidableEq, Repr

/-- How many slots an instruction takes: two for `lddw`, one for every other (R60, R70). -/
def Instr.slots : Instr → Nat
  | .add32Imm _ _ => 1
  | .add32Reg _ _ => 1
  | .add64Imm _ _ => 1
  | .add64Reg _ _ => 1
  | .sub32Imm _ _ => 1
  | .sub32Reg _ _ => 1
  | .sub64Imm _ _ => 1
  | .sub64Reg _ _ => 1
  | .mul32Imm _ _ => 1
  | .mul32Reg _ _ => 1
  | .mul64Imm _ _ => 1
  | .mul64Reg _ _ => 1
  | .div32Imm _ _ => 1
  | .div32Reg _ _ => 1
  | .div64Imm _ _ => 1
  | .div64Reg _ _ => 1
  | .mod32Imm _ _ => 1
  | .mod32Reg _ _ => 1
  | .mod64Imm _ _ => 1
  | .mod64Reg _ _ => 1
  | .neg32 _ => 1
  | .neg64 _ => 1
  | .or32Imm _ _ => 1
  | .or32Reg _ _ => 1
  | .or64Imm _ _ => 1
  | .or64Reg _ _ => 1
  | .and32Imm _ _ => 1
  | .and32Reg _ _ => 1
  | .and64Imm _ _ => 1
  | .and64Reg _ _ => 1
  | .xor32Imm _ _ => 1
  | .xor32Reg _ _ => 1
  | .xor64Imm _ _ => 1
  | .xor64Reg _ _ => 1
  | .lsh32Imm _ _ => 1
  | .lsh32Reg _ _ => 1
  | .lsh64Imm _ _ => 1
  | .lsh64Reg _ _ => 1
  | .rsh32Imm _ _ => 1
  | .rsh32Reg _ _ => 1
  | .rsh64Imm _ _ => 1
  | .rsh64Reg _ _ => 1
  | .arsh32Imm _ _ => 1
  | .arsh32Reg _ _ => 1
  | .arsh64Imm _ _ => 1
  | .arsh64Reg _ _ => 1
  | .mov32Imm _ _ => 1
  | .mov32Reg _ _ => 1
  | .mov64Imm _ _ => 1
  | .mov64Reg _ _ => 1
  | .hor64Imm _ _ => 1
  | .uhmul64Imm _ _ => 1
  | .uhmul64Reg _ _ => 1
  | .shmul64Imm _ _ => 1
  | .shmul64Reg _ _ => 1
  | .sdiv32Imm _ _ => 1
  | .sdiv32Reg _ _ => 1
  | .sdiv64Imm _ _ => 1
  | .sdiv64Reg _ _ => 1
  | .srem32Imm _ _ => 1
  | .srem32Reg _ _ => 1
  | .srem64Imm _ _ => 1
  | .srem64Reg _ _ => 1
  | .ja _ => 1
  | .jeqImm _ _ _ => 1
  | .jeqReg _ _ _ => 1
  | .jneImm _ _ _ => 1
  | .jneReg _ _ _ => 1
  | .jgtImm _ _ _ => 1
  | .jgtReg _ _ _ => 1
  | .jgeImm _ _ _ => 1
  | .jgeReg _ _ _ => 1
  | .jltImm _ _ _ => 1
  | .jltReg _ _ _ => 1
  | .jleImm _ _ _ => 1
  | .jleReg _ _ _ => 1
  | .jsgtImm _ _ _ => 1
  | .jsgtReg _ _ _ => 1
  | .jsgeImm _ _ _ => 1
  | .jsgeReg _ _ _ => 1
  | .jsltImm _ _ _ => 1
  | .jsltReg _ _ _ => 1
  | .jsleImm _ _ _ => 1
  | .jsleReg _ _ _ => 1
  | .jsetImm _ _ _ => 1
  | .jsetReg _ _ _ => 1
  | .ldxb _ _ _ => 1
  | .ldxh _ _ _ => 1
  | .ldxw _ _ _ => 1
  | .ldxdw _ _ _ => 1
  | .stbImm _ _ _ => 1
  | .sthImm _ _ _ => 1
  | .stwImm _ _ _ => 1
  | .stdwImm _ _ _ => 1
  | .stbReg _ _ _ => 1
  | .sthReg _ _ _ => 1
  | .stwReg _ _ _ => 1
  | .stdwReg _ _ _ => 1
  | .lddw _ _ => 2
  | .le16 _ => 1
  | .le32 _ => 1
  | .le64 _ => 1
  | .be16 _ => 1
  | .be32 _ => 1
  | .be64 _ => 1
  | .callImm _ _ => 1
  | .callReg _ => 1
  | .exit => 1
  | .addStk _ => 1

end Sys2Proof
end

