-- ==== Sys2Proof/Machine/Ops.lean ====
section
/-! DEFINITION. The named operations over registers and memory, raising a fault (60_exceptions R400), and the
call machinery (45_call_exit R291 to R294). Every meaning is built from these. -/

namespace Sys2Proof.Machine

/-- What an instruction or a step answers. -/
abbrev Result := Host.Outcome State Fault Refusal

/-! ### Registers -/

/-- Read a register (R8, R20). -/
def RegFile.get (f : RegFile) : Reg → Word
  | .r0 => f.r0 | .r1 => f.r1 | .r2 => f.r2 | .r3 => f.r3 | .r4 => f.r4 | .r5 => f.r5
  | .r6 => f.r6 | .r7 => f.r7 | .r8 => f.r8 | .r9 => f.r9 | .r10 => f.r10

/-- Write a register (R8, R20). -/
def RegFile.set (f : RegFile) (r : Reg) (v : Word) : RegFile :=
  match r with
  | .r0 => { f with r0 := v }
  | .r1 => { f with r1 := v }
  | .r2 => { f with r2 := v }
  | .r3 => { f with r3 := v }
  | .r4 => { f with r4 := v }
  | .r5 => { f with r5 := v }
  | .r6 => { f with r6 := v }
  | .r7 => { f with r7 := v }
  | .r8 => { f with r8 := v }
  | .r9 => { f with r9 := v }
  | .r10 => { f with r10 := v }

/-- `x[i]` (R8). -/
def State.reg (s : State) (r : Reg) : Word := s.regs.get r

/-- `x[i] <- v` (R8). -/
def State.setReg (s : State) (r : Reg) (v : Word) : State := { s with regs := s.regs.set r v }

/-- `pc <- t` (R8). -/
def State.setPc (s : State) (t : Int) : State := { s with pc := t }

/-- `pc <- pc + 1` (R25). -/
def State.advance (s : State) : State := s.setPc (s.pc + 1)

/-- `x[d] <- v; pc <- pc + 1`: how every instruction that only writes a destination ends (R107). -/
def State.writeDst (s : State) (d : Dst) (v : Word) : State := (s.setReg d.reg v).advance

/-- The call depth: the number of return frames (R31). -/
def State.depth (s : State) : Nat := s.frames.length

/-- `N_SLOTS` of the loaded program (R26). -/
def State.nSlots (s : State) : Nat := s.params.nSlots

/-! ### Taking a fault (R400, R412, R415)

The machine's only exception entry: nothing of the instruction is written, `status` records the fault, and
every later step is refused by `step`. There is no return from it (R416). -/

/-- The state a fault leaves: the status records it and nothing else changes (R400, R412). -/
def State.faultWith (s : State) (f : RunFault) : State := { s with status := .faulted f }

/-- `raise F(info)` (R8, R400): a next state, because the state at that moment is what the host sees. -/
def raise (f : RunFault) (s : State) : Result := .next (s.faultWith f)

/-- The end of an instruction that may fault: all its writes, or none and the fault (R27 (4)). -/
def State.finish (s : State) : Except RunFault State → Result
  | .ok t => .next t
  | .error f => raise f s

/-! ### Bytes and words (R46) -/

/-- The low `n` bytes of a word, the least significant first (R46, R48). -/
def wordBytes : Nat → Word → List Byte
  | 0, _ => []
  | n + 1, v => v.setWidth 8 :: wordBytes n (v >>> 8)

/-- The word whose bytes these are, the least significant first, zero-extended (R46, R47, R241). -/
def bytesToWord : List Byte → Word
  | [] => 0
  | b :: bs => (bytesToWord bs <<< 8) ||| b.setWidth 64

/-- `bswap` of the low `n` bytes of a word, the rest dropped (R7, R271). -/
def swapLow (n : Nat) (v : Word) : Word := bytesToWord (wordBytes n v).reverse

/-- The low `n` bytes of a word, the rest dropped (R271). -/
def truncLow (n : Nat) (v : Word) : Word := bytesToWord (wordBytes n v)

/-! ### Memory as data -/

/-- What an address that the list does not name reads as (log 4). -/
def Memory.unlisted : Byte := 0

/-- The byte at an address. -/
def Memory.read : Memory → Nat → Byte
  | [], _ => Memory.unlisted
  | (b, v) :: m, a => if a = b then v else if a < b then Memory.unlisted else Memory.read m a

/-- Put an entry at the head of a list, unless it says what an unlisted address reads as. -/
def Memory.entry (a : Nat) (v : Byte) (m : Memory) : Memory :=
  if v = Memory.unlisted then m else (a, v) :: m

/-- Write one byte, keeping the canonical form. -/
def Memory.write : Memory → Nat → Byte → Memory
  | [], a, v => Memory.entry a v []
  | (b, w) :: m, a, v =>
    if a < b then Memory.entry a v ((b, w) :: m)
    else if a = b then Memory.entry a v m
    else (b, w) :: Memory.write m a v

/-- Every address listed is at least `lo`, they rise strictly, and no entry is what an unlisted address
reads as. -/
def Memory.wfFrom : Nat → Memory → Bool
  | _, [] => true
  | lo, (a, v) :: m => decide (lo ≤ a) && v != Memory.unlisted && Memory.wfFrom (a + 1) m

/-- The canonical form of memory. -/
def Memory.wf (m : Memory) : Bool := Memory.wfFrom 0 m

/-- `n` bytes from address `a` up (R47). -/
def Memory.readBytes (m : Memory) : Nat → Nat → List Byte
  | _, 0 => []
  | a, n + 1 => Memory.read m a :: Memory.readBytes m (a + 1) n

/-- Bytes written from address `a` up (R48). -/
def Memory.writeBytes (m : Memory) : Nat → List Byte → Memory
  | _, [] => m
  | a, b :: bs => Memory.writeBytes (Memory.write m a b) (a + 1) bs

/-! ### The access check (R41 to R44) -/

/-- A region's permission allows an access of this kind (R43). -/
def permAllows : Perm → Access → Bool
  | .none, _ => false
  | .r, .load => true
  | .r, .store => false
  | .rw, _ => true

/-- The `n` bytes at `a` lie in the region that starts at `start`, in the integers, without wrap (R43, R44). -/
def regionHolds (start : Nat) (r : Region) (a n : Nat) : Bool :=
  decide (start ≤ a) && decide (a + n ≤ start + r.size)

/-- The four regions with their start addresses (R41). -/
def regionList (g : Regions) : List (Nat × Region) :=
  [(programStart, g.program), (stackStart, g.stack), (heapStart, g.heap), (inputStart, g.input)]

/-- An access of `n` bytes at `a` is permitted: one region holds all of it and allows the kind (R43). -/
def permits (g : Regions) (k : Access) (a n : Nat) : Bool :=
  (regionList g).any fun e => regionHolds e.1 e.2 a n && permAllows e.2.perm k

/-- The address lies in some region: there is a byte there (R40, R41). -/
def mapped (g : Regions) (a : Nat) : Bool :=
  (regionList g).any fun e => regionHolds e.1 e.2 a 1

/-! ### Loads and stores (R47 to R49) -/

/-- The four widths of a data access (R50). -/
inductive Width
  | b | h | w | dw
deriving DecidableEq, Repr

/-- How many bytes a width has (R50). -/
def Width.bytes : Width → Nat
  | .b => 1
  | .h => 2
  | .w => 4
  | .dw => 8

/-- The access is refused as misaligned (R49). -/
def State.misaligned (s : State) (a : Word) (sz : Width) : Bool :=
  s.params.misaligned == .fault && a.toNat % sz.bytes != 0

/-- The tests of an access, alignment before region (R243, R414). -/
def State.checkAccess (s : State) (k : Access) (a : Word) (sz : Width) : Except RunFault Unit :=
  if s.misaligned a sz then .error (.accessViolation s.pc a sz.bytes k)
  else if permits s.params.regions k a.toNat sz.bytes then .ok ()
  else .error (.accessViolation s.pc a sz.bytes k)

/-- `MemRead(a, n)`, zero-extended to 64 bits (R47, R241). -/
def State.memRead (s : State) (a : Word) (sz : Width) : Except RunFault Word :=
  match s.checkAccess .load a sz with
  | .ok _ => .ok (bytesToWord (s.mem.readBytes a.toNat sz.bytes))
  | .error f => .error f

/-- `MemWrite(a, n, v)` of the low `n` bytes of `v` (R48, R242). -/
def State.memWrite (s : State) (a : Word) (sz : Width) (v : Word) : Except RunFault State :=
  match s.checkAccess .store a sz with
  | .ok _ => .ok { s with mem := s.mem.writeBytes a.toNat (wordBytes sz.bytes v) }
  | .error f => .error f

/-! ### Calls and returns (R291, R292, R294) -/

/-- The frame an internal call saves; the return address is the call's `pc + 1` (R291). -/
def State.callFrame (s : State) : Frame where
  r6 := s.reg .r6
  r7 := s.reg .r7
  r8 := s.reg .r8
  r9 := s.reg .r9
  fp := s.reg .r10
  ret := s.pc + 1

/-- The stack pointer in the callee, which its frame pointer receives (R291). -/
def State.calleeSp (s : State) : Word :=
  if s.params.isa.dynamicStackFrames then s.sp else s.sp + s.params.frameStride

/-- `PushFrame(pc + 1)` (R291). -/
def State.pushFrame (s : State) : Except RunFault State :=
  if s.params.maxCallDepth ≤ s.depth then .error (.callDepthExceeded s.pc)
  else
    .ok { s with
      frames := s.callFrame :: s.frames
      sp := s.calleeSp
      regs := s.regs.set .r10 s.calleeSp }

/-- The registers after a return: `r6` to `r9` and `fp` from the frame (R292). -/
def RegFile.restore (g : RegFile) (f : Frame) : RegFile :=
  { g with r6 := f.r6, r7 := f.r7, r8 := f.r8, r9 := f.r9, r10 := f.fp }

/-- The stack pointer after a return (R292). -/
def State.callerSp (s : State) : Word :=
  if s.params.isa.dynamicStackFrames then s.sp else s.sp - s.params.frameStride

/-- `PopFrame` of the frame `f`, the frames `rest` below it staying (R292). -/
def State.popFrame (s : State) (f : Frame) (rest : List Frame) : State :=
  { s with regs := s.regs.restore f, sp := s.callerSp, frames := rest, pc := f.ret }

/-- `SlotOf(a)` (R294). -/
def State.slotOf (s : State) (a : Word) : Except RunFault Nat :=
  if a.toNat < s.params.textVaddr.toNat ∨ (a.toNat - s.params.textVaddr.toNat) % 8 ≠ 0
      ∨ s.nSlots ≤ (a.toNat - s.params.textVaddr.toNat) / 8 then
    .error (.callOutsideTextSegment s.pc a)
  else .ok ((a.toNat - s.params.textVaddr.toNat) / 8)

/-- `FUNCTIONS(key)`: the slot of the first pair with this key (R297, log 20). -/
def lookupFunction (key : BitVec 32) : List (BitVec 32 × Nat) → Option Nat
  | [] => none
  | (k, t) :: rest => if k = key then some t else lookupFunction key rest

/-! ### Syscalls (R293) -/

/-- What the host function is given (R293). -/
def State.hostArgs (s : State) : HostArgs where
  a1 := s.reg .r1
  a2 := s.reg .r2
  a3 := s.reg .r3
  a4 := s.reg .r4
  a5 := s.reg .r5

/-- The registers after a syscall that succeeded: `x[0]` the result, `x[1]` to `x[5]` free values
(R293, log 10), the others unchanged. -/
def RegFile.afterSyscall (g : RegFile) (r0 : Word) (draw : Nat) : RegFile :=
  { g with
    r0 := r0
    r1 := Config.freeWord draw
    r2 := Config.freeWord (draw + 1)
    r3 := Config.freeWord (draw + 2)
    r4 := Config.freeWord (draw + 3)
    r5 := Config.freeWord (draw + 4) }

/-- The bytes a host function changes, in order; only bytes of the four regions exist to be changed
(R40, R58, log 9). -/
def hostWrites (g : Regions) (m : Memory) : List (Word × Byte) → Memory
  | [] => m
  | (a, v) :: rest =>
    if mapped g a.toNat then hostWrites g (Memory.write m a.toNat v) rest
    else hostWrites g m rest

/-- The machine after a host function's answer (R293): all of its effect, or the error and nothing. -/
def State.hostAnswered (s : State) : HostAnswer → Except RunFault State
  | .ok r0 writes =>
    .ok { s with
      regs := s.regs.afterSyscall r0 s.draws
      mem := hostWrites s.params.regions s.mem writes
      draws := s.draws + 5
      pc := s.pc + 1 }
  | .error e => .error (.syscallError s.pc e)

end Sys2Proof.Machine
end

