-- ==== Sys2Proof/Machine/Operands.lean ====
section
/-! DEFINITION. Operand forms and arithmetic: the second operand of 64-bit and 32-bit forms (40_alu R101,
R102), the widening of 32-bit results (R103), shift counts (R106), division (R105, 41_alu_pqr R171), high
products (R173, R175), addresses (43_load_store R240) and jump targets (42_jump R200). -/

namespace Sys2Proof.Machine

/-! ### Operands -/

/-- An immediate as a 64-bit operand: sign-extended (R65, R101). -/
def sextImm (imm : Imm) : Word := imm.signExtend 64

/-- The low 32 bits of a register (R102). -/
def low32 (v : Word) : BitVec 32 := v.setWidth 32

/-- A register shift count of a 32-bit form: `x & 31` (R106). -/
def count32 (v : Word) : Nat := (v &&& 31).toNat

/-- A register shift count of a 64-bit form: `x & 63` (R106). -/
def count64 (v : Word) : Nat := (v &&& 63).toNat

/-- `ALU32_EXT` as the function it is (R3, R103). -/
def extOf (x : Alu32Ext) : Alu32Op → Ext
  | .add32 => x.add32
  | .sub32 => x.sub32
  | .mul32 => x.mul32
  | .div32 => x.div32
  | .mod32 => x.mod32
  | .neg32 => x.neg32
  | .or32 => x.or32
  | .and32 => x.and32
  | .xor32 => x.xor32
  | .lsh32 => x.lsh32
  | .rsh32 => x.rsh32
  | .arsh32 => x.arsh32
  | .mov32 => x.mov32
  | .sdiv32 => x.sdiv32
  | .srem32 => x.srem32

/-- Widen a 32-bit result to 64 bits (R103). -/
def widen : Ext → BitVec 32 → Word
  | .sext, r => r.signExtend 64
  | .zext, r => r.setWidth 64

/-- `ALU32_EXT(op)(r32)` under the parameters of the run (R102, R103). -/
def State.widen32 (s : State) (op : Alu32Op) (r : BitVec 32) : Word :=
  widen (extOf s.params.alu32Ext op) r

/-- The address of a load or store: `(x[base] + sext_64(offset)) mod 2^64` (R240). -/
def State.address (s : State) (base : Reg) (off : Offset) : Word := s.reg base + off.signExtend 64

/-- The target of a taken jump: `pc + 1 + sext(offset)` in the integers (R200). -/
def jumpTarget (pc : Int) (off : Offset) : Int := pc + 1 + off.toInt

/-! ### Arithmetic -/

/-- Unsigned quotient, or `DivideByZero` (R105). -/
def quotU {n : Nat} (pc : Int) (a b : BitVec n) : Except RunFault (BitVec n) :=
  if b = 0 then .error (.divideByZero pc) else .ok (BitVec.ofNat n (a.toNat / b.toNat))

/-- Unsigned remainder, or `DivideByZero` (R105). -/
def remU {n : Nat} (pc : Int) (a b : BitVec n) : Except RunFault (BitVec n) :=
  if b = 0 then .error (.divideByZero pc) else .ok (BitVec.ofNat n (a.toNat % b.toNat))

/-- The overflowing signed division: the most negative value by -1 (R171, R404). -/
def divOverflows {n : Nat} (a b : BitVec n) : Bool := a == BitVec.intMin n && b == BitVec.allOnes n

/-- Signed quotient truncated toward zero, or `DivideByZero`, or `DivideOverflow` (R171, R403, R404). -/
def quotS {n : Nat} (pc : Int) (a b : BitVec n) : Except RunFault (BitVec n) :=
  if b = 0 then .error (.divideByZero pc)
  else if divOverflows a b then .error (.divideOverflow pc)
  else .ok (BitVec.ofInt n (a.toInt.tdiv b.toInt))

/-- Signed remainder `s(a) - q * s(b)`, with the faults of the signed quotient (R171). -/
def remS {n : Nat} (pc : Int) (a b : BitVec n) : Except RunFault (BitVec n) :=
  if b = 0 then .error (.divideByZero pc)
  else if divOverflows a b then .error (.divideOverflow pc)
  else .ok (BitVec.ofInt n (a.toInt - a.toInt.tdiv b.toInt * b.toInt))

/-- The high 64 bits of the unsigned 128-bit product (R173). -/
def mulHighU (a b : Word) : Word := BitVec.ofNat 64 (a.toNat * b.toNat / 2 ^ 64)

/-- The high 64 bits of the signed 128-bit product (R175). -/
def mulHighS (a b : Word) : Word := BitVec.ofInt 64 (a.toInt * b.toInt / 2 ^ 64)

/-! ### The shapes of an ALU instruction (R100 to R102, R107) -/

/-- A 64-bit instruction on `x[d]` and an operand. -/
def State.alu64 (s : State) (d : Dst) (f : Word → Word) : Result :=
  .next (s.writeDst d (f (s.reg d.reg)))

/-- A 32-bit instruction on the low half of `x[d]`, its result widened. -/
def State.alu32 (s : State) (op : Alu32Op) (d : Dst) (f : BitVec 32 → BitVec 32) : Result :=
  .next (s.writeDst d (s.widen32 op (f (low32 (s.reg d.reg)))))

/-- A 64-bit instruction that may fault. -/
def State.div64 (s : State) (d : Dst) (f : Word → Except RunFault Word) : Result :=
  s.finish ((f (s.reg d.reg)).map fun v => s.writeDst d v)

/-- A 32-bit instruction that may fault. -/
def State.div32 (s : State) (op : Alu32Op) (d : Dst)
    (f : BitVec 32 → Except RunFault (BitVec 32)) : Result :=
  s.finish ((f (low32 (s.reg d.reg))).map fun r => s.writeDst d (s.widen32 op r))

end Sys2Proof.Machine
end

