-- ==== Sys2Proof/Machine/Alu32.lean ====
section
/-! DEFINITION. The 32-bit ALU instructions (40_alu): low halves in, the result widened by `ALU32_EXT` (R102, R103). -/

namespace Sys2Proof.Machine

/-- `add32_imm` (R110): 32-bit sum, immediate form. -/
def execAdd32Imm (d : Dst) (imm : Imm) (s : State) : Result :=
  s.alu32 .add32 d fun a => a + imm

/-- `add32_reg` (R111): 32-bit sum, register form. -/
def execAdd32Reg (d : Dst) (src : Reg) (s : State) : Result :=
  s.alu32 .add32 d fun a => a + low32 (s.reg src)

/-- `sub32_imm` (R114): 32-bit difference, immediate form. -/
def execSub32Imm (d : Dst) (imm : Imm) (s : State) : Result :=
  s.alu32 .sub32 d fun a => a - imm

/-- `sub32_reg` (R115): 32-bit difference, register form. -/
def execSub32Reg (d : Dst) (src : Reg) (s : State) : Result :=
  s.alu32 .sub32 d fun a => a - low32 (s.reg src)

/-- `mul32_imm` (R118): 32-bit low half of the product, immediate form. -/
def execMul32Imm (d : Dst) (imm : Imm) (s : State) : Result :=
  s.alu32 .mul32 d fun a => a * imm

/-- `mul32_reg` (R119): 32-bit low half of the product, register form. -/
def execMul32Reg (d : Dst) (src : Reg) (s : State) : Result :=
  s.alu32 .mul32 d fun a => a * low32 (s.reg src)

/-- `div32_imm` (R122): 32-bit unsigned quotient, immediate form. -/
def execDiv32Imm (d : Dst) (imm : Imm) (s : State) : Result :=
  s.div32 .div32 d fun a => quotU s.pc a imm

/-- `div32_reg` (R123): 32-bit unsigned quotient, register form. -/
def execDiv32Reg (d : Dst) (src : Reg) (s : State) : Result :=
  s.div32 .div32 d fun a => quotU s.pc a (low32 (s.reg src))

/-- `mod32_imm` (R126): 32-bit unsigned remainder, immediate form. -/
def execMod32Imm (d : Dst) (imm : Imm) (s : State) : Result :=
  s.div32 .mod32 d fun a => remU s.pc a imm

/-- `mod32_reg` (R127): 32-bit unsigned remainder, register form. -/
def execMod32Reg (d : Dst) (src : Reg) (s : State) : Result :=
  s.div32 .mod32 d fun a => remU s.pc a (low32 (s.reg src))

/-- `neg32` (R130): two's-complement negation. -/
def execNeg32 (d : Dst) (s : State) : Result :=
  s.alu32 .neg32 d fun a => 0 - a

/-- `or32_imm` (R132): 32-bit bitwise OR, immediate form. -/
def execOr32Imm (d : Dst) (imm : Imm) (s : State) : Result :=
  s.alu32 .or32 d fun a => a ||| imm

/-- `or32_reg` (R133): 32-bit bitwise OR, register form. -/
def execOr32Reg (d : Dst) (src : Reg) (s : State) : Result :=
  s.alu32 .or32 d fun a => a ||| low32 (s.reg src)

/-- `and32_imm` (R136): 32-bit bitwise AND, immediate form. -/
def execAnd32Imm (d : Dst) (imm : Imm) (s : State) : Result :=
  s.alu32 .and32 d fun a => a &&& imm

/-- `and32_reg` (R137): 32-bit bitwise AND, register form. -/
def execAnd32Reg (d : Dst) (src : Reg) (s : State) : Result :=
  s.alu32 .and32 d fun a => a &&& low32 (s.reg src)

/-- `xor32_imm` (R140): 32-bit bitwise exclusive OR, immediate form. -/
def execXor32Imm (d : Dst) (imm : Imm) (s : State) : Result :=
  s.alu32 .xor32 d fun a => a ^^^ imm

/-- `xor32_reg` (R141): 32-bit bitwise exclusive OR, register form. -/
def execXor32Reg (d : Dst) (src : Reg) (s : State) : Result :=
  s.alu32 .xor32 d fun a => a ^^^ low32 (s.reg src)

/-- `lsh32_imm` (R144): 32-bit shift left, immediate form. -/
def execLsh32Imm (d : Dst) (imm : Imm) (s : State) : Result :=
  s.alu32 .lsh32 d fun a => a <<< imm.toNat

/-- `lsh32_reg` (R145): 32-bit shift left, register form. -/
def execLsh32Reg (d : Dst) (src : Reg) (s : State) : Result :=
  s.alu32 .lsh32 d fun a => a <<< count32 (s.reg src)

/-- `rsh32_imm` (R148): 32-bit logical shift right, immediate form. -/
def execRsh32Imm (d : Dst) (imm : Imm) (s : State) : Result :=
  s.alu32 .rsh32 d fun a => a >>> imm.toNat

/-- `rsh32_reg` (R149): 32-bit logical shift right, register form. -/
def execRsh32Reg (d : Dst) (src : Reg) (s : State) : Result :=
  s.alu32 .rsh32 d fun a => a >>> count32 (s.reg src)

/-- `arsh32_imm` (R152): 32-bit arithmetic shift right, immediate form. -/
def execArsh32Imm (d : Dst) (imm : Imm) (s : State) : Result :=
  s.alu32 .arsh32 d fun a => a.sshiftRight imm.toNat

/-- `arsh32_reg` (R153): 32-bit arithmetic shift right, register form. -/
def execArsh32Reg (d : Dst) (src : Reg) (s : State) : Result :=
  s.alu32 .arsh32 d fun a => a.sshiftRight (count32 (s.reg src))

/-- `mov32_imm` (R156): 32-bit move, immediate form. -/
def execMov32Imm (d : Dst) (imm : Imm) (s : State) : Result :=
  s.alu32 .mov32 d fun _ => imm

/-- `mov32_reg` (R157): 32-bit move, register form. -/
def execMov32Reg (d : Dst) (src : Reg) (s : State) : Result :=
  s.alu32 .mov32 d fun _ => low32 (s.reg src)

end Sys2Proof.Machine
end

