-- ==== Sys2Proof/Machine/Alu64.lean ====
section
/-! DEFINITION. The 64-bit ALU instructions (40_alu): full registers, immediates sign-extended (R101). -/

namespace Sys2Proof.Machine

/-- `add64_imm` (R112): 64-bit sum, immediate form. -/
def execAdd64Imm (d : Dst) (imm : Imm) (s : State) : Result :=
  s.alu64 d fun a => a + sextImm imm

/-- `add64_reg` (R113): 64-bit sum, register form. -/
def execAdd64Reg (d : Dst) (src : Reg) (s : State) : Result :=
  s.alu64 d fun a => a + s.reg src

/-- `sub64_imm` (R116): 64-bit difference, immediate form. -/
def execSub64Imm (d : Dst) (imm : Imm) (s : State) : Result :=
  s.alu64 d fun a => a - sextImm imm

/-- `sub64_reg` (R117): 64-bit difference, register form. -/
def execSub64Reg (d : Dst) (src : Reg) (s : State) : Result :=
  s.alu64 d fun a => a - s.reg src

/-- `mul64_imm` (R120): 64-bit low half of the product, immediate form. -/
def execMul64Imm (d : Dst) (imm : Imm) (s : State) : Result :=
  s.alu64 d fun a => a * sextImm imm

/-- `mul64_reg` (R121): 64-bit low half of the product, register form. -/
def execMul64Reg (d : Dst) (src : Reg) (s : State) : Result :=
  s.alu64 d fun a => a * s.reg src

/-- `div64_imm` (R124): 64-bit unsigned quotient, immediate form. -/
def execDiv64Imm (d : Dst) (imm : Imm) (s : State) : Result :=
  s.div64 d fun a => quotU s.pc a (sextImm imm)

/-- `div64_reg` (R125): 64-bit unsigned quotient, register form. -/
def execDiv64Reg (d : Dst) (src : Reg) (s : State) : Result :=
  s.div64 d fun a => quotU s.pc a (s.reg src)

/-- `mod64_imm` (R128): 64-bit unsigned remainder, immediate form. -/
def execMod64Imm (d : Dst) (imm : Imm) (s : State) : Result :=
  s.div64 d fun a => remU s.pc a (sextImm imm)

/-- `mod64_reg` (R129): 64-bit unsigned remainder, register form. -/
def execMod64Reg (d : Dst) (src : Reg) (s : State) : Result :=
  s.div64 d fun a => remU s.pc a (s.reg src)

/-- `neg64` (R131): two's-complement negation. -/
def execNeg64 (d : Dst) (s : State) : Result :=
  s.alu64 d fun a => 0 - a

/-- `or64_imm` (R134): 64-bit bitwise OR, immediate form. -/
def execOr64Imm (d : Dst) (imm : Imm) (s : State) : Result :=
  s.alu64 d fun a => a ||| sextImm imm

/-- `or64_reg` (R135): 64-bit bitwise OR, register form. -/
def execOr64Reg (d : Dst) (src : Reg) (s : State) : Result :=
  s.alu64 d fun a => a ||| s.reg src

/-- `and64_imm` (R138): 64-bit bitwise AND, immediate form. -/
def execAnd64Imm (d : Dst) (imm : Imm) (s : State) : Result :=
  s.alu64 d fun a => a &&& sextImm imm

/-- `and64_reg` (R139): 64-bit bitwise AND, register form. -/
def execAnd64Reg (d : Dst) (src : Reg) (s : State) : Result :=
  s.alu64 d fun a => a &&& s.reg src

/-- `xor64_imm` (R142): 64-bit bitwise exclusive OR, immediate form. -/
def execXor64Imm (d : Dst) (imm : Imm) (s : State) : Result :=
  s.alu64 d fun a => a ^^^ sextImm imm

/-- `xor64_reg` (R143): 64-bit bitwise exclusive OR, register form. -/
def execXor64Reg (d : Dst) (src : Reg) (s : State) : Result :=
  s.alu64 d fun a => a ^^^ s.reg src

/-- `lsh64_imm` (R146): 64-bit shift left, immediate form. -/
def execLsh64Imm (d : Dst) (imm : Imm) (s : State) : Result :=
  s.alu64 d fun a => a <<< imm.toNat

/-- `lsh64_reg` (R147): 64-bit shift left, register form. -/
def execLsh64Reg (d : Dst) (src : Reg) (s : State) : Result :=
  s.alu64 d fun a => a <<< count64 (s.reg src)

/-- `rsh64_imm` (R150): 64-bit logical shift right, immediate form. -/
def execRsh64Imm (d : Dst) (imm : Imm) (s : State) : Result :=
  s.alu64 d fun a => a >>> imm.toNat

/-- `rsh64_reg` (R151): 64-bit logical shift right, register form. -/
def execRsh64Reg (d : Dst) (src : Reg) (s : State) : Result :=
  s.alu64 d fun a => a >>> count64 (s.reg src)

/-- `arsh64_imm` (R154): 64-bit arithmetic shift right, immediate form. -/
def execArsh64Imm (d : Dst) (imm : Imm) (s : State) : Result :=
  s.alu64 d fun a => a.sshiftRight imm.toNat

/-- `arsh64_reg` (R155): 64-bit arithmetic shift right, register form. -/
def execArsh64Reg (d : Dst) (src : Reg) (s : State) : Result :=
  s.alu64 d fun a => a.sshiftRight (count64 (s.reg src))

/-- `mov64_imm` (R158): 64-bit move, immediate form. -/
def execMov64Imm (d : Dst) (imm : Imm) (s : State) : Result :=
  s.alu64 d fun _ => sextImm imm

/-- `mov64_reg` (R159): 64-bit move, register form. -/
def execMov64Reg (d : Dst) (src : Reg) (s : State) : Result :=
  s.alu64 d fun _ => s.reg src

/-- `hor64_imm` (R160): OR the immediate into the upper half. -/
def execHor64Imm (d : Dst) (imm : Imm) (s : State) : Result :=
  s.alu64 d fun a => a ||| (imm.setWidth 64 <<< 32)

end Sys2Proof.Machine
end

