-- ==== Sys2Proof/Machine/ByteSwap.lean ====
section
/-! DEFINITION. The byte-swap instructions (44_byteswap). -/

namespace Sys2Proof.Machine

/-- `le`: to little-endian format: no byte moves on a little-endian host, the low bytes are reversed on a
big-endian one; the rest is cleared (R271, log 13). -/
def swapLe (e : Endian) (n : Nat) (v : Word) : Word :=
  match e with
  | .little => truncLow n v
  | .big => swapLow n v

/-- `be`: to big-endian format, the two bodies exchanged (R271). -/
def swapBe (e : Endian) (n : Nat) (v : Word) : Word :=
  match e with
  | .little => swapLow n v
  | .big => truncLow n v

/-- `le16` (R272). -/
def execLe16 (d : Dst) (s : State) : Result :=
  s.alu64 d fun a => swapLe s.params.hostEndian 2 a

/-- `le32` (R273). -/
def execLe32 (d : Dst) (s : State) : Result :=
  s.alu64 d fun a => swapLe s.params.hostEndian 4 a

/-- `le64` (R274). -/
def execLe64 (d : Dst) (s : State) : Result :=
  s.alu64 d fun a => swapLe s.params.hostEndian 8 a

/-- `be16` (R275). -/
def execBe16 (d : Dst) (s : State) : Result :=
  s.alu64 d fun a => swapBe s.params.hostEndian 2 a

/-- `be32` (R276). -/
def execBe32 (d : Dst) (s : State) : Result :=
  s.alu64 d fun a => swapBe s.params.hostEndian 4 a

/-- `be64` (R277). -/
def execBe64 (d : Dst) (s : State) : Result :=
  s.alu64 d fun a => swapBe s.params.hostEndian 8 a

end Sys2Proof.Machine
end

