-- ==== Sys2Proof/Machine/CallExit.lean ====
section
/-! DEFINITION. Call and exit (45_call_exit) and `add_stk` (46_other_v2). -/

namespace Sys2Proof.Machine

/-- An internal call to slot `t`: push the frame, then jump (R291, R297, R298). -/
def State.callSlot (s : State) (t : Nat) : Result :=
  s.finish (s.pushFrame.map fun s' => s'.setPc t)

/-- An external call: the host function of this key, if there is one (R293, R297). -/
def State.syscall (s : State) (key : BitVec 32) : Result :=
  if s.params.syscalls.contains key then
    s.finish (s.hostAnswered (Config.hostAnswer s.draws key s.hostArgs s.mem))
  else raise (.unsupportedInstruction s.pc) s

/-- `call_imm` (R290, R297): a syscall when the `src` field is 0, otherwise an internal call to the slot
`FUNCTIONS` gives the key. The key is looked up before the depth is tested (R414). -/
def execCallImm (sel : BitVec 4) (key : BitVec 32) (s : State) : Result :=
  if sel = 0 then s.syscall key
  else
    match lookupFunction key s.params.functions with
    | some t => s.callSlot t
    | none => raise (.unsupportedInstruction s.pc) s

/-- `call_reg` (R298): an internal call to the address in a register, read before `x[10]` changes; the
depth is tested before the address (R414). -/
def execCallReg (r : Reg) (s : State) : Result :=
  if s.params.maxCallDepth ≤ s.depth then raise (.callDepthExceeded s.pc) s
  else
    match s.slotOf (s.reg r) with
    | .ok t => s.callSlot t
    | .error f => raise f s

/-- `exit` (R299): return to the caller, or end the run at depth 0 with `x[0]` as its result; `pc` then
keeps the address of the `exit`. -/
def execExit (s : State) : Result :=
  match s.frames with
  | f :: rest => .next (s.popFrame f rest)
  | [] => .next { s with status := .exited (s.reg .r0) }

/-- `add_stk` (R320): moves the hidden stack pointer; unchecked, and no general register changes. -/
def execAddStk (imm : Imm) (s : State) : Result :=
  .next { s with sp := s.sp + sextImm imm, pc := s.pc + 1 }

end Sys2Proof.Machine
end

