-- ==== Sys2Proof/Machine/Flags.lean ====
section
/-! DEFINITION. The machine has no flags (10_state R28): a conditional jump compares its two operands
itself. These are the conditions (42_jump R201, R205 to R226) and the one way a jump ends (R200, R202). -/

namespace Sys2Proof.Machine

/-- `a = b` (R205, R206). -/
def condEq (a b : Word) : Bool := a == b
/-- `a != b` (R207, R208). -/
def condNe (a b : Word) : Bool := a != b
/-- `u(a) > u(b)` (R209, R210). -/
def condGt (a b : Word) : Bool := decide (a.toNat > b.toNat)
/-- `u(a) >= u(b)` (R211, R212). -/
def condGe (a b : Word) : Bool := decide (a.toNat ≥ b.toNat)
/-- `u(a) < u(b)` (R213, R214). -/
def condLt (a b : Word) : Bool := decide (a.toNat < b.toNat)
/-- `u(a) <= u(b)` (R215, R216). -/
def condLe (a b : Word) : Bool := decide (a.toNat ≤ b.toNat)
/-- `s(a) > s(b)` (R217, R218). -/
def condSgt (a b : Word) : Bool := decide (a.toInt > b.toInt)
/-- `s(a) >= s(b)` (R219, R220). -/
def condSge (a b : Word) : Bool := decide (a.toInt ≥ b.toInt)
/-- `s(a) < s(b)` (R221, R222). -/
def condSlt (a b : Word) : Bool := decide (a.toInt < b.toInt)
/-- `s(a) <= s(b)` (R223, R224). -/
def condSle (a b : Word) : Bool := decide (a.toInt ≤ b.toInt)
/-- `(a & b) != 0` (R225, R226). -/
def condSet (a b : Word) : Bool := a &&& b != 0

/-- A jump with its condition decided: to the target, or to the next slot (R200, R202). -/
def State.branch (s : State) (taken : Bool) (off : Offset) : Result :=
  .next (s.setPc (if taken then jumpTarget s.pc off else s.pc + 1))

/-- A conditional jump, immediate form (R201). -/
def State.jumpImm (s : State) (cond : Word → Word → Bool) (l : Reg) (imm : Imm) (off : Offset) : Result :=
  s.branch (cond (s.reg l) (sextImm imm)) off

/-- A conditional jump, register form (R201). -/
def State.jumpReg (s : State) (cond : Word → Word → Bool) (l r : Reg) (off : Offset) : Result :=
  s.branch (cond (s.reg l) (s.reg r)) off

end Sys2Proof.Machine
end

