-- ==== Sys2Proof/Machine/Jump.lean ====
section
/-! DEFINITION. The jump instructions (42_jump). -/

namespace Sys2Proof.Machine

/-- `ja` (R204): always jumps. -/
def execJa (off : Offset) (s : State) : Result :=
  s.branch true off

/-- `jeq_imm` (R205). -/
def execJeqImm (l : Reg) (imm : Imm) (off : Offset) (s : State) : Result :=
  s.jumpImm condEq l imm off

/-- `jeq_reg` (R206). -/
def execJeqReg (l : Reg) (r : Reg) (off : Offset) (s : State) : Result :=
  s.jumpReg condEq l r off

/-- `jne_imm` (R207). -/
def execJneImm (l : Reg) (imm : Imm) (off : Offset) (s : State) : Result :=
  s.jumpImm condNe l imm off

/-- `jne_reg` (R208). -/
def execJneReg (l : Reg) (r : Reg) (off : Offset) (s : State) : Result :=
  s.jumpReg condNe l r off

/-- `jgt_imm` (R209). -/
def execJgtImm (l : Reg) (imm : Imm) (off : Offset) (s : State) : Result :=
  s.jumpImm condGt l imm off

/-- `jgt_reg` (R210). -/
def execJgtReg (l : Reg) (r : Reg) (off : Offset) (s : State) : Result :=
  s.jumpReg condGt l r off

/-- `jge_imm` (R211). -/
def execJgeImm (l : Reg) (imm : Imm) (off : Offset) (s : State) : Result :=
  s.jumpImm condGe l imm off

/-- `jge_reg` (R212). -/
def execJgeReg (l : Reg) (r : Reg) (off : Offset) (s : State) : Result :=
  s.jumpReg condGe l r off

/-- `jlt_imm` (R213). -/
def execJltImm (l : Reg) (imm : Imm) (off : Offset) (s : State) : Result :=
  s.jumpImm condLt l imm off

/-- `jlt_reg` (R214). -/
def execJltReg (l : Reg) (r : Reg) (off : Offset) (s : State) : Result :=
  s.jumpReg condLt l r off

/-- `jle_imm` (R215). -/
def execJleImm (l : Reg) (imm : Imm) (off : Offset) (s : State) : Result :=
  s.jumpImm condLe l imm off

/-- `jle_reg` (R216). -/
def execJleReg (l : Reg) (r : Reg) (off : Offset) (s : State) : Result :=
  s.jumpReg condLe l r off

/-- `jsgt_imm` (R217). -/
def execJsgtImm (l : Reg) (imm : Imm) (off : Offset) (s : State) : Result :=
  s.jumpImm condSgt l imm off

/-- `jsgt_reg` (R218). -/
def execJsgtReg (l : Reg) (r : Reg) (off : Offset) (s : State) : Result :=
  s.jumpReg condSgt l r off

/-- `jsge_imm` (R219). -/
def execJsgeImm (l : Reg) (imm : Imm) (off : Offset) (s : State) : Result :=
  s.jumpImm condSge l imm off

/-- `jsge_reg` (R220). -/
def execJsgeReg (l : Reg) (r : Reg) (off : Offset) (s : State) : Result :=
  s.jumpReg condSge l r off

/-- `jslt_imm` (R221). -/
def execJsltImm (l : Reg) (imm : Imm) (off : Offset) (s : State) : Result :=
  s.jumpImm condSlt l imm off

/-- `jslt_reg` (R222). -/
def execJsltReg (l : Reg) (r : Reg) (off : Offset) (s : State) : Result :=
  s.jumpReg condSlt l r off

/-- `jsle_imm` (R223). -/
def execJsleImm (l : Reg) (imm : Imm) (off : Offset) (s : State) : Result :=
  s.jumpImm condSle l imm off

/-- `jsle_reg` (R224). -/
def execJsleReg (l : Reg) (r : Reg) (off : Offset) (s : State) : Result :=
  s.jumpReg condSle l r off

/-- `jset_imm` (R225). -/
def execJsetImm (l : Reg) (imm : Imm) (off : Offset) (s : State) : Result :=
  s.jumpImm condSet l imm off

/-- `jset_reg` (R226). -/
def execJsetReg (l : Reg) (r : Reg) (off : Offset) (s : State) : Result :=
  s.jumpReg condSet l r off

end Sys2Proof.Machine
end

