-- ==== Sys2Proof/Machine/LoadStore.lean ====
section
/-! DEFINITION. The load and store instructions and `lddw` (43_load_store). -/

namespace Sys2Proof.Machine

/-- `ldx*`: address, checks, access, then the destination and `pc` (R240, R241, R243). -/
def State.load (s : State) (sz : Width) (d : Dst) (base : Reg) (off : Offset) : Result :=
  s.finish ((s.memRead (s.address base off) sz).map fun v => s.writeDst d v)

/-- `st*`: address, checks, the low bytes of the value, then `pc` (R240, R242, R243). -/
def State.store (s : State) (sz : Width) (base : Reg) (off : Offset) (v : Word) : Result :=
  s.finish ((s.memWrite (s.address base off) sz v).map fun t => t.advance)

/-- `ldxb` (R244). -/
def execLdxb (d : Dst) (base : Reg) (off : Offset) (s : State) : Result :=
  s.load .b d base off

/-- `ldxh` (R245). -/
def execLdxh (d : Dst) (base : Reg) (off : Offset) (s : State) : Result :=
  s.load .h d base off

/-- `ldxw` (R246). -/
def execLdxw (d : Dst) (base : Reg) (off : Offset) (s : State) : Result :=
  s.load .w d base off

/-- `ldxdw` (R247). -/
def execLdxdw (d : Dst) (base : Reg) (off : Offset) (s : State) : Result :=
  s.load .dw d base off

/-- `stb_imm` (R248). -/
def execStbImm (base : Reg) (off : Offset) (imm : Imm) (s : State) : Result :=
  s.store .b base off (sextImm imm)

/-- `sth_imm` (R249). -/
def execSthImm (base : Reg) (off : Offset) (imm : Imm) (s : State) : Result :=
  s.store .h base off (sextImm imm)

/-- `stw_imm` (R250). -/
def execStwImm (base : Reg) (off : Offset) (imm : Imm) (s : State) : Result :=
  s.store .w base off (sextImm imm)

/-- `stdw_imm` (R251). -/
def execStdwImm (base : Reg) (off : Offset) (imm : Imm) (s : State) : Result :=
  s.store .dw base off (sextImm imm)

/-- `stb_reg` (R252). -/
def execStbReg (base : Reg) (off : Offset) (src : Reg) (s : State) : Result :=
  s.store .b base off (s.reg src)

/-- `sth_reg` (R253). -/
def execSthReg (base : Reg) (off : Offset) (src : Reg) (s : State) : Result :=
  s.store .h base off (s.reg src)

/-- `stw_reg` (R254). -/
def execStwReg (base : Reg) (off : Offset) (src : Reg) (s : State) : Result :=
  s.store .w base off (s.reg src)

/-- `stdw_reg` (R255). -/
def execStdwReg (base : Reg) (off : Offset) (src : Reg) (s : State) : Result :=
  s.store .dw base off (s.reg src)

/-- `lddw` (R256): both slots are read, `pc` advances by 2 (R25). -/
def execLddw (d : Dst) (value : Word) (s : State) : Result :=
  .next ((s.setReg d.reg value).setPc (s.pc + 2))

end Sys2Proof.Machine
end

