-- ==== Sys2Proof/Machine/Pqr.lean ====
section
/-! DEFINITION. The v2 product, quotient and remainder instructions (41_alu_pqr). -/

namespace Sys2Proof.Machine

/-- `uhmul64_imm` (R173): 64-bit high half of the unsigned product, immediate form. -/
def execUhmul64Imm (d : Dst) (imm : Imm) (s : State) : Result :=
  s.alu64 d fun a => mulHighU a (sextImm imm)

/-- `uhmul64_reg` (R174): 64-bit high half of the unsigned product, register form. -/
def execUhmul64Reg (d : Dst) (src : Reg) (s : State) : Result :=
  s.alu64 d fun a => mulHighU a (s.reg src)

/-- `shmul64_imm` (R175): 64-bit high half of the signed product, immediate form. -/
def execShmul64Imm (d : Dst) (imm : Imm) (s : State) : Result :=
  s.alu64 d fun a => mulHighS a (sextImm imm)

/-- `shmul64_reg` (R176): 64-bit high half of the signed product, register form. -/
def execShmul64Reg (d : Dst) (src : Reg) (s : State) : Result :=
  s.alu64 d fun a => mulHighS a (s.reg src)

/-- `sdiv32_imm` (R177): 32-bit signed quotient, immediate form. -/
def execSdiv32Imm (d : Dst) (imm : Imm) (s : State) : Result :=
  s.div32 .sdiv32 d fun a => quotS s.pc a imm

/-- `sdiv32_reg` (R178): 32-bit signed quotient, register form. -/
def execSdiv32Reg (d : Dst) (src : Reg) (s : State) : Result :=
  s.div32 .sdiv32 d fun a => quotS s.pc a (low32 (s.reg src))

/-- `sdiv64_imm` (R179): 64-bit signed quotient, immediate form. -/
def execSdiv64Imm (d : Dst) (imm : Imm) (s : State) : Result :=
  s.div64 d fun a => quotS s.pc a (sextImm imm)

/-- `sdiv64_reg` (R180): 64-bit signed quotient, register form. -/
def execSdiv64Reg (d : Dst) (src : Reg) (s : State) : Result :=
  s.div64 d fun a => quotS s.pc a (s.reg src)

/-- `srem32_imm` (R181): 32-bit signed remainder, immediate form. -/
def execSrem32Imm (d : Dst) (imm : Imm) (s : State) : Result :=
  s.div32 .srem32 d fun a => remS s.pc a imm

/-- `srem32_reg` (R182): 32-bit signed remainder, register form. -/
def execSrem32Reg (d : Dst) (src : Reg) (s : State) : Result :=
  s.div32 .srem32 d fun a => remS s.pc a (low32 (s.reg src))

/-- `srem64_imm` (R183): 64-bit signed remainder, immediate form. -/
def execSrem64Imm (d : Dst) (imm : Imm) (s : State) : Result :=
  s.div64 d fun a => remS s.pc a (sextImm imm)

/-- `srem64_reg` (R184): 64-bit signed remainder, register form. -/
def execSrem64Reg (d : Dst) (src : Reg) (s : State) : Result :=
  s.div64 d fun a => remS s.pc a (s.reg src)

end Sys2Proof.Machine
end

