-- ==== Sys2Proof/Machine/Dispatch.lean ====
section
/-! DEFINITION. Dispatch: the meaning of each instruction, one arm for each constructor. -/

namespace Sys2Proof.Machine

def exec (i : Instr) (s : State) : Host.Outcome State Fault Refusal :=
  match i with
  | .add32Imm d imm => Sys2Proof.Machine.execAdd32Imm d imm s
  | .add32Reg d src => Sys2Proof.Machine.execAdd32Reg d src s
  | .add64Imm d imm => Sys2Proof.Machine.execAdd64Imm d imm s
  | .add64Reg d src => Sys2Proof.Machine.execAdd64Reg d src s
  | .sub32Imm d imm => Sys2Proof.Machine.execSub32Imm d imm s
  | .sub32Reg d src => Sys2Proof.Machine.execSub32Reg d src s
  | .sub64Imm d imm => Sys2Proof.Machine.execSub64Imm d imm s
  | .sub64Reg d src => Sys2Proof.Machine.execSub64Reg d src s
  | .mul32Imm d imm => Sys2Proof.Machine.execMul32Imm d imm s
  | .mul32Reg d src => Sys2Proof.Machine.execMul32Reg d src s
  | .mul64Imm d imm => Sys2Proof.Machine.execMul64Imm d imm s
  | .mul64Reg d src => Sys2Proof.Machine.execMul64Reg d src s
  | .div32Imm d imm => Sys2Proof.Machine.execDiv32Imm d imm s
  | .div32Reg d src => Sys2Proof.Machine.execDiv32Reg d src s
  | .div64Imm d imm => Sys2Proof.Machine.execDiv64Imm d imm s
  | .div64Reg d src => Sys2Proof.Machine.execDiv64Reg d src s
  | .mod32Imm d imm => Sys2Proof.Machine.execMod32Imm d imm s
  | .mod32Reg d src => Sys2Proof.Machine.execMod32Reg d src s
  | .mod64Imm d imm => Sys2Proof.Machine.execMod64Imm d imm s
  | .mod64Reg d src => Sys2Proof.Machine.execMod64Reg d src s
  | .neg32 d => Sys2Proof.Machine.execNeg32 d s
  | .neg64 d => Sys2Proof.Machine.execNeg64 d s
  | .or32Imm d imm => Sys2Proof.Machine.execOr32Imm d imm s
  | .or32Reg d src => Sys2Proof.Machine.execOr32Reg d src s
  | .or64Imm d imm => Sys2Proof.Machine.execOr64Imm d imm s
  | .or64Reg d src => Sys2Proof.Machine.execOr64Reg d src s
  | .and32Imm d imm => Sys2Proof.Machine.execAnd32Imm d imm s
  | .and32Reg d src => Sys2Proof.Machine.execAnd32Reg d src s
  | .and64Imm d imm => Sys2Proof.Machine.execAnd64Imm d imm s
  | .and64Reg d src => Sys2Proof.Machine.execAnd64Reg d src s
  | .xor32Imm d imm => Sys2Proof.Machine.execXor32Imm d imm s
  | .xor32Reg d src => Sys2Proof.Machine.execXor32Reg d src s
  | .xor64Imm d imm => Sys2Proof.Machine.execXor64Imm d imm s
  | .xor64Reg d src => Sys2Proof.Machine.execXor64Reg d src s
  | .lsh32Imm d imm => Sys2Proof.Machine.execLsh32Imm d imm s
  | .lsh32Reg d src => Sys2Proof.Machine.execLsh32Reg d src s
  | .lsh64Imm d imm => Sys2Proof.Machine.execLsh64Imm d imm s
  | .lsh64Reg d src => Sys2Proof.Machine.execLsh64Reg d src s
  | .rsh32Imm d imm => Sys2Proof.Machine.execRsh32Imm d imm s
  | .rsh32Reg d src => Sys2Proof.Machine.execRsh32Reg d src s
  | .rsh64Imm d imm => Sys2Proof.Machine.execRsh64Imm d imm s
  | .rsh64Reg d src => Sys2Proof.Machine.execRsh64Reg d src s
  | .arsh32Imm d imm => Sys2Proof.Machine.execArsh32Imm d imm s
  | .arsh32Reg d src => Sys2Proof.Machine.execArsh32Reg d src s
  | .arsh64Imm d imm => Sys2Proof.Machine.execArsh64Imm d imm s
  | .arsh64Reg d src => Sys2Proof.Machine.execArsh64Reg d src s
  | .mov32Imm d imm => Sys2Proof.Machine.execMov32Imm d imm s
  | .mov32Reg d src => Sys2Proof.Machine.execMov32Reg d src s
  | .mov64Imm d imm => Sys2Proof.Machine.execMov64Imm d imm s
  | .mov64Reg d src => Sys2Proof.Machine.execMov64Reg d src s
  | .hor64Imm d imm => Sys2Proof.Machine.execHor64Imm d imm s
  | .uhmul64Imm d imm => Sys2Proof.Machine.execUhmul64Imm d imm s
  | .uhmul64Reg d src => Sys2Proof.Machine.execUhmul64Reg d src s
  | .shmul64Imm d imm => Sys2Proof.Machine.execShmul64Imm d imm s
  | .shmul64Reg d src => Sys2Proof.Machine.execShmul64Reg d src s
  | .sdiv32Imm d imm => Sys2Proof.Machine.execSdiv32Imm d imm s
  | .sdiv32Reg d src => Sys2Proof.Machine.execSdiv32Reg d src s
  | .sdiv64Imm d imm => Sys2Proof.Machine.execSdiv64Imm d imm s
  | .sdiv64Reg d src => Sys2Proof.Machine.execSdiv64Reg d src s
  | .srem32Imm d imm => Sys2Proof.Machine.execSrem32Imm d imm s
  | .srem32Reg d src => Sys2Proof.Machine.execSrem32Reg d src s
  | .srem64Imm d imm => Sys2Proof.Machine.execSrem64Imm d imm s
  | .srem64Reg d src => Sys2Proof.Machine.execSrem64Reg d src s
  | .ja off => Sys2Proof.Machine.execJa off s
  | .jeqImm l imm off => Sys2Proof.Machine.execJeqImm l imm off s
  | .jeqReg l r off => Sys2Proof.Machine.execJeqReg l r off s
  | .jneImm l imm off => Sys2Proof.Machine.execJneImm l imm off s
  | .jneReg l r off => Sys2Proof.Machine.execJneReg l r off s
  | .jgtImm l imm off => Sys2Proof.Machine.execJgtImm l imm off s
  | .jgtReg l r off => Sys2Proof.Machine.execJgtReg l r off s
  | .jgeImm l imm off => Sys2Proof.Machine.execJgeImm l imm off s
  | .jgeReg l r off => Sys2Proof.Machine.execJgeReg l r off s
  | .jltImm l imm off => Sys2Proof.Machine.execJltImm l imm off s
  | .jltReg l r off => Sys2Proof.Machine.execJltReg l r off s
  | .jleImm l imm off => Sys2Proof.Machine.execJleImm l imm off s
  | .jleReg l r off => Sys2Proof.Machine.execJleReg l r off s
  | .jsgtImm l imm off => Sys2Proof.Machine.execJsgtImm l imm off s
  | .jsgtReg l r off => Sys2Proof.Machine.execJsgtReg l r off s
  | .jsgeImm l imm off => Sys2Proof.Machine.execJsgeImm l imm off s
  | .jsgeReg l r off => Sys2Proof.Machine.execJsgeReg l r off s
  | .jsltImm l imm off => Sys2Proof.Machine.execJsltImm l imm off s
  | .jsltReg l r off => Sys2Proof.Machine.execJsltReg l r off s
  | .jsleImm l imm off => Sys2Proof.Machine.execJsleImm l imm off s
  | .jsleReg l r off => Sys2Proof.Machine.execJsleReg l r off s
  | .jsetImm l imm off => Sys2Proof.Machine.execJsetImm l imm off s
  | .jsetReg l r off => Sys2Proof.Machine.execJsetReg l r off s
  | .ldxb d base off => Sys2Proof.Machine.execLdxb d base off s
  | .ldxh d base off => Sys2Proof.Machine.execLdxh d base off s
  | .ldxw d base off => Sys2Proof.Machine.execLdxw d base off s
  | .ldxdw d base off => Sys2Proof.Machine.execLdxdw d base off s
  | .stbImm base off imm => Sys2Proof.Machine.execStbImm base off imm s
  | .sthImm base off imm => Sys2Proof.Machine.execSthImm base off imm s
  | .stwImm base off imm => Sys2Proof.Machine.execStwImm base off imm s
  | .stdwImm base off imm => Sys2Proof.Machine.execStdwImm base off imm s
  | .stbReg base off src => Sys2Proof.Machine.execStbReg base off src s
  | .sthReg base off src => Sys2Proof.Machine.execSthReg base off src s
  | .stwReg base off src => Sys2Proof.Machine.execStwReg base off src s
  | .stdwReg base off src => Sys2Proof.Machine.execStdwReg base off src s
  | .lddw d value => Sys2Proof.Machine.execLddw d value s
  | .le16 d => Sys2Proof.Machine.execLe16 d s
  | .le32 d => Sys2Proof.Machine.execLe32 d s
  | .le64 d => Sys2Proof.Machine.execLe64 d s
  | .be16 d => Sys2Proof.Machine.execBe16 d s
  | .be32 d => Sys2Proof.Machine.execBe32 d s
  | .be64 d => Sys2Proof.Machine.execBe64 d s
  | .callImm sel key => Sys2Proof.Machine.execCallImm sel key s
  | .callReg r => Sys2Proof.Machine.execCallReg r s
  | .exit => Sys2Proof.Machine.execExit s
  | .addStk imm => Sys2Proof.Machine.execAddStk imm s

end Sys2Proof.Machine
end

