-- ==== Sys2Proof/WellFormed.lean ====
section
/-! DEFINITION. Well-formed instructions: the immediates 30_encoding R75 allows. The operand types rule
out everything else R74 and R75 forbid (a destination is `r0` to `r9`, a register `r0` to `r10`, the size
of a byte swap is 16, 32 or 64). Which version has an instruction is `Instr.availableIn` (Decode.lean). -/

namespace Sys2Proof

/-- The immediate is legal (R75): not 0 for a division or remainder, at most 31 or 63 for a shift,
compared as an unsigned number (R106). -/
def Instr.wf : Instr → Bool
  | .div32Imm _ imm
  | .div64Imm _ imm
  | .mod32Imm _ imm
  | .mod64Imm _ imm
  | .sdiv32Imm _ imm
  | .sdiv64Imm _ imm
  | .srem32Imm _ imm
  | .srem64Imm _ imm => imm != 0
  | .lsh32Imm _ imm
  | .rsh32Imm _ imm
  | .arsh32Imm _ imm => decide (imm.toNat ≤ 31)
  | .lsh64Imm _ imm
  | .rsh64Imm _ imm
  | .arsh64Imm _ imm => decide (imm.toNat ≤ 63)
  | .add32Imm _ _ | .add32Reg _ _ | .add64Imm _ _ | .add64Reg _ _ | .sub32Imm _ _ | .sub32Reg _ _
  | .sub64Imm _ _ | .sub64Reg _ _ | .mul32Imm _ _ | .mul32Reg _ _ | .mul64Imm _ _ | .mul64Reg _ _
  | .div32Reg _ _ | .div64Reg _ _ | .mod32Reg _ _ | .mod64Reg _ _ | .neg32 _ | .neg64 _
  | .or32Imm _ _ | .or32Reg _ _ | .or64Imm _ _ | .or64Reg _ _ | .and32Imm _ _ | .and32Reg _ _
  | .and64Imm _ _ | .and64Reg _ _ | .xor32Imm _ _ | .xor32Reg _ _ | .xor64Imm _ _ | .xor64Reg _ _
  | .lsh32Reg _ _ | .lsh64Reg _ _ | .rsh32Reg _ _ | .rsh64Reg _ _ | .arsh32Reg _ _
  | .arsh64Reg _ _ | .mov32Imm _ _ | .mov32Reg _ _ | .mov64Imm _ _ | .mov64Reg _ _
  | .hor64Imm _ _ | .uhmul64Imm _ _ | .uhmul64Reg _ _ | .shmul64Imm _ _ | .shmul64Reg _ _
  | .sdiv32Reg _ _ | .sdiv64Reg _ _ | .srem32Reg _ _ | .srem64Reg _ _ | .ja _ | .jeqImm _ _ _
  | .jeqReg _ _ _ | .jneImm _ _ _ | .jneReg _ _ _ | .jgtImm _ _ _ | .jgtReg _ _ _ | .jgeImm _ _ _
  | .jgeReg _ _ _ | .jltImm _ _ _ | .jltReg _ _ _ | .jleImm _ _ _ | .jleReg _ _ _
  | .jsgtImm _ _ _ | .jsgtReg _ _ _ | .jsgeImm _ _ _ | .jsgeReg _ _ _ | .jsltImm _ _ _
  | .jsltReg _ _ _ | .jsleImm _ _ _ | .jsleReg _ _ _ | .jsetImm _ _ _ | .jsetReg _ _ _
  | .ldxb _ _ _ | .ldxh _ _ _ | .ldxw _ _ _ | .ldxdw _ _ _ | .stbImm _ _ _ | .sthImm _ _ _
  | .stwImm _ _ _ | .stdwImm _ _ _ | .stbReg _ _ _ | .sthReg _ _ _ | .stwReg _ _ _
  | .stdwReg _ _ _ | .lddw _ _ | .le16 _ | .le32 _ | .le64 _ | .be16 _ | .be32 _ | .be64 _
  | .callImm _ _ | .callReg _ | .exit | .addStk _ => true

end Sys2Proof
end

