-- ==== Sys2Proof/Decode.lean ====
section
/-! DEFINITION. The decoder and the encoder (30_encoding). The opcode map is data (`opcodeTable`, R71, log 14);
the decoder is total, rejects by name, and reads only the fields an instruction uses (R76). The encoder writes
0 in unused fields. An immediate 0 of a division is left to its meaning, which raises `DivideByZero` (log 7). -/

namespace Sys2Proof

/-! ### The fields of a slot (R61) -/

/-- `opcode`, bits 63:56. -/
def opcodeField (w : Slot) : BitVec 8 := w.extractLsb' 56 8
/-- `dst`, bits 55:52. -/
def dstField (w : Slot) : BitVec 4 := w.extractLsb' 52 4
/-- `src`, bits 51:48. -/
def srcField (w : Slot) : BitVec 4 := w.extractLsb' 48 4
/-- `offset`, bits 47:32. -/
def offsetField (w : Slot) : Offset := w.extractLsb' 32 16
/-- `immediate`, bits 31:0. -/
def immField (w : Slot) : Imm := w.extractLsb' 0 32

/-- A slot from its five fields (R61). -/
def mkSlot (op : BitVec 8) (dst src : BitVec 4) (off : Offset) (imm : Imm) : Slot :=
  op ++ dst ++ src ++ off ++ imm

/-! ### Byte serialisation of a slot (R66, log 15) -/

/-- The eight bytes of a slot in memory order, `b0` to `b7` of R66. -/
def slotBytes (w : Slot) : List Byte :=
  [opcodeField w, srcField w ++ dstField w,
    w.extractLsb' 32 8, w.extractLsb' 40 8,
    w.extractLsb' 0 8, w.extractLsb' 8 8, w.extractLsb' 16 8, w.extractLsb' 24 8]

/-- The slot that eight bytes in memory order stand for (R66). -/
def slotOfBytes (b0 b1 b2 b3 b4 b5 b6 b7 : Byte) : Slot :=
  mkSlot b0 (b1.extractLsb' 0 4) (b1.extractLsb' 4 4) (b3 ++ b2) (b7 ++ b6 ++ b5 ++ b4)

/-- The bytes of a program, slot after slot (R45). -/
def programBytes (p : List Slot) : List Byte := p.flatMap slotBytes

/-! ### Register numbers (R20, R23, R74) -/

/-- The number of a register. -/
def Reg.code : Reg → BitVec 4
  | .r0 => 0 | .r1 => 1 | .r2 => 2 | .r3 => 3 | .r4 => 4 | .r5 => 5
  | .r6 => 6 | .r7 => 7 | .r8 => 8 | .r9 => 9 | .r10 => 10

/-- The number of a destination. -/
def Dst.code (d : Dst) : BitVec 4 := d.reg.code

/-- The register a field names; 11 to 15 name none (R23). -/
def Reg.ofCode (c : BitVec 4) : Option Reg :=
  match c.toNat with
  | 0 => some .r0 | 1 => some .r1 | 2 => some .r2 | 3 => some .r3 | 4 => some .r4 | 5 => some .r5
  | 6 => some .r6 | 7 => some .r7 | 8 => some .r8 | 9 => some .r9 | 10 => some .r10 | _ => none

/-- The destination a field names; 10 to 15 name none (R74). -/
def Dst.ofCode (c : BitVec 4) : Option Dst :=
  match c.toNat with
  | 0 => some .r0 | 1 => some .r1 | 2 => some .r2 | 3 => some .r3 | 4 => some .r4
  | 5 => some .r5 | 6 => some .r6 | 7 => some .r7 | 8 => some .r8 | 9 => some .r9 | _ => none

/-! ### The opcode map -/

/-- Why a slot is an illegal encoding (R78). At run time all of them raise `UnsupportedInstruction`. -/
inductive Illegal
  /-- R72: no instruction has this opcode byte. -/
  | unassignedOpcode
  /-- R73: the instruction is not available in this version. -/
  | notInVersion
  /-- R74: a register field names no register the instruction allows there. -/
  | badRegister
  /-- R75: the immediate is out of range. -/
  | badImmediate
  /-- R77: `lddw` with `src` not 0, a missing second slot or a second slot that is not only an immediate. -/
  | badLddw
deriving DecidableEq, Repr

/-- Which versions have an instruction (R73); `v2OrFlag` is `lddw`'s, with `LDDW_IN_V1`. -/
inductive Avail
  | both | v1Only | v2Only | v2OrFlag
deriving DecidableEq, Repr

/-- Version gating (R73). -/
def Avail.inIsa (m : Isa) : Avail → Bool
  | .both => true
  | .v1Only => m.version == .v1
  | .v2Only => m.version == .v2
  | .v2OrFlag => m.version == .v2 || m.lddwInV1

/-- The operand formats: which fields an instruction uses and what it makes of them. -/
inductive Form
  | dst (mk : Dst → Instr)
  | dstImm (mk : Dst → Imm → Instr)
  | shiftImm (max : Nat) (mk : Dst → Imm → Instr)
  | dstReg (mk : Dst → Reg → Instr)
  | jump (mk : Offset → Instr)
  | jumpImm (mk : Reg → Imm → Offset → Instr)
  | jumpReg (mk : Reg → Reg → Offset → Instr)
  | load (mk : Dst → Reg → Offset → Instr)
  | storeImm (mk : Reg → Offset → Imm → Instr)
  | storeReg (mk : Reg → Offset → Reg → Instr)
  | wide (mk : Dst → Word → Instr)
  | swap (mk16 mk32 mk64 : Dst → Instr)
  | callImm (mk : BitVec 4 → BitVec 32 → Instr)
  | callReg (mk : Reg → Instr)
  | plain (i : Instr)

/-- One opcode byte of R71 with its versions and operand format. -/
structure OpcodeRow where
  opcode : BitVec 8
  avail : Avail
  form : Form

/-- 32-bit ALU rows (R71; 40_alu). -/
def alu32Rows : List OpcodeRow := [
  ⟨0x04, .both, .dstImm .add32Imm⟩,
  ⟨0x0c, .both, .dstReg .add32Reg⟩,
  ⟨0x14, .both, .dstImm .sub32Imm⟩,
  ⟨0x1c, .both, .dstReg .sub32Reg⟩,
  ⟨0x24, .both, .dstImm .mul32Imm⟩,
  ⟨0x2c, .both, .dstReg .mul32Reg⟩,
  ⟨0x34, .both, .dstImm .div32Imm⟩,
  ⟨0x3c, .both, .dstReg .div32Reg⟩,
  ⟨0x94, .both, .dstImm .mod32Imm⟩,
  ⟨0x9c, .both, .dstReg .mod32Reg⟩,
  ⟨0x84, .v1Only, .dst .neg32⟩,
  ⟨0x44, .both, .dstImm .or32Imm⟩,
  ⟨0x4c, .both, .dstReg .or32Reg⟩,
  ⟨0x54, .both, .dstImm .and32Imm⟩,
  ⟨0x5c, .both, .dstReg .and32Reg⟩,
  ⟨0xa4, .both, .dstImm .xor32Imm⟩,
  ⟨0xac, .both, .dstReg .xor32Reg⟩,
  ⟨0x64, .both, .shiftImm 31 .lsh32Imm⟩,
  ⟨0x6c, .both, .dstReg .lsh32Reg⟩,
  ⟨0x74, .both, .shiftImm 31 .rsh32Imm⟩,
  ⟨0x7c, .both, .dstReg .rsh32Reg⟩,
  ⟨0xc4, .both, .shiftImm 31 .arsh32Imm⟩,
  ⟨0xcc, .both, .dstReg .arsh32Reg⟩,
  ⟨0xb4, .both, .dstImm .mov32Imm⟩,
  ⟨0xbc, .both, .dstReg .mov32Reg⟩]

/-- 64-bit ALU rows (R71; 40_alu). -/
def alu64Rows : List OpcodeRow := [
  ⟨0x07, .both, .dstImm .add64Imm⟩,
  ⟨0x0f, .both, .dstReg .add64Reg⟩,
  ⟨0x17, .both, .dstImm .sub64Imm⟩,
  ⟨0x1f, .both, .dstReg .sub64Reg⟩,
  ⟨0x27, .both, .dstImm .mul64Imm⟩,
  ⟨0x2f, .both, .dstReg .mul64Reg⟩,
  ⟨0x37, .both, .dstImm .div64Imm⟩,
  ⟨0x3f, .both, .dstReg .div64Reg⟩,
  ⟨0x97, .both, .dstImm .mod64Imm⟩,
  ⟨0x9f, .both, .dstReg .mod64Reg⟩,
  ⟨0x87, .v1Only, .dst .neg64⟩,
  ⟨0x47, .both, .dstImm .or64Imm⟩,
  ⟨0x4f, .both, .dstReg .or64Reg⟩,
  ⟨0x57, .both, .dstImm .and64Imm⟩,
  ⟨0x5f, .both, .dstReg .and64Reg⟩,
  ⟨0xa7, .both, .dstImm .xor64Imm⟩,
  ⟨0xaf, .both, .dstReg .xor64Reg⟩,
  ⟨0x67, .both, .shiftImm 63 .lsh64Imm⟩,
  ⟨0x6f, .both, .dstReg .lsh64Reg⟩,
  ⟨0x77, .both, .shiftImm 63 .rsh64Imm⟩,
  ⟨0x7f, .both, .dstReg .rsh64Reg⟩,
  ⟨0xc7, .both, .shiftImm 63 .arsh64Imm⟩,
  ⟨0xcf, .both, .dstReg .arsh64Reg⟩,
  ⟨0xb7, .both, .dstImm .mov64Imm⟩,
  ⟨0xbf, .both, .dstReg .mov64Reg⟩,
  ⟨0xf7, .v2Only, .dstImm .hor64Imm⟩]

/-- PQR rows (R71; 41_alu_pqr). -/
def pqrRows : List OpcodeRow := [
  ⟨0x36, .v2Only, .dstImm .uhmul64Imm⟩,
  ⟨0x3e, .v2Only, .dstReg .uhmul64Reg⟩,
  ⟨0xb6, .v2Only, .dstImm .shmul64Imm⟩,
  ⟨0xbe, .v2Only, .dstReg .shmul64Reg⟩,
  ⟨0xc6, .v2Only, .dstImm .sdiv32Imm⟩,
  ⟨0xce, .v2Only, .dstReg .sdiv32Reg⟩,
  ⟨0xd6, .v2Only, .dstImm .sdiv64Imm⟩,
  ⟨0xde, .v2Only, .dstReg .sdiv64Reg⟩,
  ⟨0xe6, .v2Only, .dstImm .srem32Imm⟩,
  ⟨0xee, .v2Only, .dstReg .srem32Reg⟩,
  ⟨0xf6, .v2Only, .dstImm .srem64Imm⟩,
  ⟨0xfe, .v2Only, .dstReg .srem64Reg⟩]

/-- Jump rows (R71; 42_jump). -/
def jumpRows : List OpcodeRow := [
  ⟨0x05, .both, .jump .ja⟩,
  ⟨0x15, .both, .jumpImm .jeqImm⟩,
  ⟨0x1d, .both, .jumpReg .jeqReg⟩,
  ⟨0x55, .both, .jumpImm .jneImm⟩,
  ⟨0x5d, .both, .jumpReg .jneReg⟩,
  ⟨0x25, .both, .jumpImm .jgtImm⟩,
  ⟨0x2d, .both, .jumpReg .jgtReg⟩,
  ⟨0x35, .both, .jumpImm .jgeImm⟩,
  ⟨0x3d, .both, .jumpReg .jgeReg⟩,
  ⟨0xa5, .both, .jumpImm .jltImm⟩,
  ⟨0xad, .both, .jumpReg .jltReg⟩,
  ⟨0xb5, .both, .jumpImm .jleImm⟩,
  ⟨0xbd, .both, .jumpReg .jleReg⟩,
  ⟨0x65, .both, .jumpImm .jsgtImm⟩,
  ⟨0x6d, .both, .jumpReg .jsgtReg⟩,
  ⟨0x75, .both, .jumpImm .jsgeImm⟩,
  ⟨0x7d, .both, .jumpReg .jsgeReg⟩,
  ⟨0xc5, .both, .jumpImm .jsltImm⟩,
  ⟨0xcd, .both, .jumpReg .jsltReg⟩,
  ⟨0xd5, .both, .jumpImm .jsleImm⟩,
  ⟨0xdd, .both, .jumpReg .jsleReg⟩,
  ⟨0x45, .both, .jumpImm .jsetImm⟩,
  ⟨0x4d, .both, .jumpReg .jsetReg⟩]

/-- Load and store rows (R71; 43_load_store). -/
def memoryRows : List OpcodeRow := [
  ⟨0x71, .both, .load .ldxb⟩,
  ⟨0x69, .both, .load .ldxh⟩,
  ⟨0x61, .both, .load .ldxw⟩,
  ⟨0x79, .both, .load .ldxdw⟩,
  ⟨0x72, .both, .storeImm .stbImm⟩,
  ⟨0x6a, .both, .storeImm .sthImm⟩,
  ⟨0x62, .both, .storeImm .stwImm⟩,
  ⟨0x7a, .both, .storeImm .stdwImm⟩,
  ⟨0x73, .both, .storeReg .stbReg⟩,
  ⟨0x6b, .both, .storeReg .sthReg⟩,
  ⟨0x63, .both, .storeReg .stwReg⟩,
  ⟨0x7b, .both, .storeReg .stdwReg⟩,
  ⟨0x18, .v2OrFlag, .wide .lddw⟩]

/-- Byte-swap rows (R71, R270). -/
def swapRows : List OpcodeRow := [
  ⟨0xd4, .v1Only, .swap .le16 .le32 .le64⟩,
  ⟨0xdc, .both, .swap .be16 .be32 .be64⟩]

/-- Call and exit rows (R71; 45_call_exit). -/
def callRows : List OpcodeRow := [
  ⟨0x85, .both, .callImm .callImm⟩,
  ⟨0x8d, .both, .callReg .callReg⟩,
  ⟨0x95, .both, .plain .exit⟩]

/-- The opcode map (R71): 104 opcode bytes. `add_stk` shares the byte of `add64_imm` and is told apart
before the map is consulted (`Isa.isAddStk`). -/
def opcodeTable : List OpcodeRow :=
  alu32Rows ++ alu64Rows ++ pqrRows ++ jumpRows ++ memoryRows ++ swapRows ++ callRows

/-- The row of an opcode byte. -/
def findRow (op : BitVec 8) : List OpcodeRow → Option OpcodeRow
  | [] => none
  | r :: rs => if r.opcode = op then some r else findRow op rs

/-! ### Decoding -/

/-- The opcode byte `add_stk` shares with `add64_imm` (R320). -/
def addStkOpcode : BitVec 8 := 0x07

/-- The slot with that byte and this `dst` field is `add_stk`, not `add64_imm` (R112, R320, C3). -/
def Isa.isAddStk (m : Isa) (dst : BitVec 4) : Bool :=
  m.version == .v2 && m.dynamicStackFrames && dst == m.addStkDst

/-- A register operand, or the refusal R74 gives it. -/
def regOperand (c : BitVec 4) (k : Reg → Except Illegal Instr) : Except Illegal Instr :=
  match Reg.ofCode c with
  | some r => k r
  | none => .error .badRegister

/-- A destination operand, or the refusal R74 gives it. -/
def dstOperand (c : BitVec 4) (k : Dst → Except Illegal Instr) : Except Illegal Instr :=
  match Dst.ofCode c with
  | some d => k d
  | none => .error .badRegister

/-- The second slot of `lddw` holds an immediate and zeros (R69, R77). -/
def isLddwSecond (w : Slot) : Bool := w.extractLsb' 32 32 == 0

/-- The `lddw` pair (R69, R77). -/
def buildLddw (mk : Dst → Word → Instr) (w : Slot) (second : Option Slot) : Except Illegal Instr :=
  dstOperand (dstField w) fun d =>
    match second with
    | none => .error .badLddw
    | some w2 =>
      if srcField w = 0 ∧ isLddwSecond w2 = true then .ok (mk d (immField w2 ++ immField w))
      else .error .badLddw

/-- The operand of `call_reg`: the `src` field in v2, the immediate 0..9 in v1 (R74, R75, R298). -/
def buildCallReg (m : Isa) (mk : Reg → Instr) (w : Slot) : Except Illegal Instr :=
  match m.version with
  | .v2 => regOperand (srcField w) fun r => .ok (mk r)
  | .v1 =>
    if (immField w).toNat ≤ 9 then regOperand ((immField w).setWidth 4) fun r => .ok (mk r)
    else .error .badImmediate

/-- The size of a byte swap: an immediate of exactly 16, 32 or 64 (R75, R270). -/
def buildSwap (mk16 mk32 mk64 : Dst → Instr) (w : Slot) : Except Illegal Instr :=
  dstOperand (dstField w) fun d =>
    if immField w = 16 then .ok (mk16 d)
    else if immField w = 32 then .ok (mk32 d)
    else if immField w = 64 then .ok (mk64 d)
    else .error .badImmediate

/-- The instruction of a slot whose row is known; `second` is the slot after it, if there is one. -/
def Form.build (m : Isa) (f : Form) (w : Slot) (second : Option Slot) : Except Illegal Instr :=
  match f with
  | .dst mk => dstOperand (dstField w) fun d => .ok (mk d)
  | .dstImm mk => dstOperand (dstField w) fun d => .ok (mk d (immField w))
  | .shiftImm max mk =>
    dstOperand (dstField w) fun d =>
      if (immField w).toNat ≤ max then .ok (mk d (immField w)) else .error .badImmediate
  | .dstReg mk => dstOperand (dstField w) fun d => regOperand (srcField w) fun r => .ok (mk d r)
  | .jump mk => .ok (mk (offsetField w))
  | .jumpImm mk => regOperand (dstField w) fun l => .ok (mk l (immField w) (offsetField w))
  | .jumpReg mk =>
    regOperand (dstField w) fun l => regOperand (srcField w) fun r => .ok (mk l r (offsetField w))
  | .load mk =>
    dstOperand (dstField w) fun d => regOperand (srcField w) fun b => .ok (mk d b (offsetField w))
  | .storeImm mk => regOperand (dstField w) fun b => .ok (mk b (offsetField w) (immField w))
  | .storeReg mk =>
    regOperand (dstField w) fun b => regOperand (srcField w) fun r => .ok (mk b (offsetField w) r)
  | .wide mk => buildLddw mk w second
  | .swap mk16 mk32 mk64 => buildSwap mk16 mk32 mk64 w
  | .callImm mk => .ok (mk (srcField w) (immField w))
  | .callReg mk => buildCallReg m mk w
  | .plain i => .ok i

/-- The instruction of the slot `w`, `second` being the slot after it (R27 (3), R70, R78). -/
def decode (m : Isa) (w : Slot) (second : Option Slot) : Except Illegal Instr :=
  if opcodeField w = addStkOpcode ∧ m.isAddStk (dstField w) = true then .ok (.addStk (immField w))
  else
    match findRow (opcodeField w) opcodeTable with
    | none => .error .unassignedOpcode
    | some row =>
      if row.avail.inIsa m = true then row.form.build m w second else .error .notInVersion

/-- The instruction at the head of a list of slots; none where there is no slot. -/
def decodeSlots (m : Isa) : List Slot → Option (Except Illegal Instr)
  | [] => none
  | w :: rest => some (decode m w rest.head?)

/-! ### Availability and encoding -/

/-- The instruction set `m` has an encoding for this instruction (R73; `call_reg` in v1 names `r0` to
`r9`, R75; `add64_imm` and `add_stk` share a byte, R112, R320). -/
def Instr.availableIn (m : Isa) : Instr → Bool
  | .add64Imm d _ => !m.isAddStk d.code
  | .addStk _ => m.version == .v2 && m.dynamicStackFrames
  | .lddw _ _ => m.version == .v2 || m.lddwInV1
  | .callReg r => m.version == .v2 || r != .r10
  | .neg32 _ | .neg64 _ | .le16 _ | .le32 _ | .le64 _ => m.version == .v1
  | .hor64Imm _ _ | .uhmul64Imm _ _ | .uhmul64Reg _ _ | .shmul64Imm _ _ | .shmul64Reg _ _
  | .sdiv32Imm _ _ | .sdiv32Reg _ _ | .sdiv64Imm _ _ | .sdiv64Reg _ _ | .srem32Imm _ _
  | .srem32Reg _ _ | .srem64Imm _ _ | .srem64Reg _ _ => m.version == .v2
  | .add32Imm _ _ | .add32Reg _ _ | .add64Reg _ _ | .sub32Imm _ _ | .sub32Reg _ _ | .sub64Imm _ _
  | .sub64Reg _ _ | .mul32Imm _ _ | .mul32Reg _ _ | .mul64Imm _ _ | .mul64Reg _ _ | .div32Imm _ _
  | .div32Reg _ _ | .div64Imm _ _ | .div64Reg _ _ | .mod32Imm _ _ | .mod32Reg _ _ | .mod64Imm _ _
  | .mod64Reg _ _ | .or32Imm _ _ | .or32Reg _ _ | .or64Imm _ _ | .or64Reg _ _ | .and32Imm _ _
  | .and32Reg _ _ | .and64Imm _ _ | .and64Reg _ _ | .xor32Imm _ _ | .xor32Reg _ _ | .xor64Imm _ _
  | .xor64Reg _ _ | .lsh32Imm _ _ | .lsh32Reg _ _ | .lsh64Imm _ _ | .lsh64Reg _ _ | .rsh32Imm _ _
  | .rsh32Reg _ _ | .rsh64Imm _ _ | .rsh64Reg _ _ | .arsh32Imm _ _ | .arsh32Reg _ _
  | .arsh64Imm _ _ | .arsh64Reg _ _ | .mov32Imm _ _ | .mov32Reg _ _ | .mov64Imm _ _
  | .mov64Reg _ _ | .ja _ | .jeqImm _ _ _ | .jeqReg _ _ _ | .jneImm _ _ _ | .jneReg _ _ _
  | .jgtImm _ _ _ | .jgtReg _ _ _ | .jgeImm _ _ _ | .jgeReg _ _ _ | .jltImm _ _ _ | .jltReg _ _ _
  | .jleImm _ _ _ | .jleReg _ _ _ | .jsgtImm _ _ _ | .jsgtReg _ _ _ | .jsgeImm _ _ _
  | .jsgeReg _ _ _ | .jsltImm _ _ _ | .jsltReg _ _ _ | .jsleImm _ _ _ | .jsleReg _ _ _
  | .jsetImm _ _ _ | .jsetReg _ _ _ | .ldxb _ _ _ | .ldxh _ _ _ | .ldxw _ _ _ | .ldxdw _ _ _
  | .stbImm _ _ _ | .sthImm _ _ _ | .stwImm _ _ _ | .stdwImm _ _ _ | .stbReg _ _ _
  | .sthReg _ _ _ | .stwReg _ _ _ | .stdwReg _ _ _ | .be16 _ | .be32 _ | .be64 _ | .callImm _ _
  | .exit => true

/-- The slots of an instruction, from the opcode map of R71 and the formats of R61 and R69. -/
def encode (m : Isa) : Instr → List Slot
  | .add32Imm d imm => [mkSlot 0x04#8 d.code 0 0 imm]
  | .add32Reg d src => [mkSlot 0x0c#8 d.code src.code 0 0]
  | .add64Imm d imm => [mkSlot 0x07#8 d.code 0 0 imm]
  | .add64Reg d src => [mkSlot 0x0f#8 d.code src.code 0 0]
  | .sub32Imm d imm => [mkSlot 0x14#8 d.code 0 0 imm]
  | .sub32Reg d src => [mkSlot 0x1c#8 d.code src.code 0 0]
  | .sub64Imm d imm => [mkSlot 0x17#8 d.code 0 0 imm]
  | .sub64Reg d src => [mkSlot 0x1f#8 d.code src.code 0 0]
  | .mul32Imm d imm => [mkSlot 0x24#8 d.code 0 0 imm]
  | .mul32Reg d src => [mkSlot 0x2c#8 d.code src.code 0 0]
  | .mul64Imm d imm => [mkSlot 0x27#8 d.code 0 0 imm]
  | .mul64Reg d src => [mkSlot 0x2f#8 d.code src.code 0 0]
  | .div32Imm d imm => [mkSlot 0x34#8 d.code 0 0 imm]
  | .div32Reg d src => [mkSlot 0x3c#8 d.code src.code 0 0]
  | .div64Imm d imm => [mkSlot 0x37#8 d.code 0 0 imm]
  | .div64Reg d src => [mkSlot 0x3f#8 d.code src.code 0 0]
  | .mod32Imm d imm => [mkSlot 0x94#8 d.code 0 0 imm]
  | .mod32Reg d src => [mkSlot 0x9c#8 d.code src.code 0 0]
  | .mod64Imm d imm => [mkSlot 0x97#8 d.code 0 0 imm]
  | .mod64Reg d src => [mkSlot 0x9f#8 d.code src.code 0 0]
  | .neg32 d => [mkSlot 0x84#8 d.code 0 0 0]
  | .neg64 d => [mkSlot 0x87#8 d.code 0 0 0]
  | .or32Imm d imm => [mkSlot 0x44#8 d.code 0 0 imm]
  | .or32Reg d src => [mkSlot 0x4c#8 d.code src.code 0 0]
  | .or64Imm d imm => [mkSlot 0x47#8 d.code 0 0 imm]
  | .or64Reg d src => [mkSlot 0x4f#8 d.code src.code 0 0]
  | .and32Imm d imm => [mkSlot 0x54#8 d.code 0 0 imm]
  | .and32Reg d src => [mkSlot 0x5c#8 d.code src.code 0 0]
  | .and64Imm d imm => [mkSlot 0x57#8 d.code 0 0 imm]
  | .and64Reg d src => [mkSlot 0x5f#8 d.code src.code 0 0]
  | .xor32Imm d imm => [mkSlot 0xa4#8 d.code 0 0 imm]
  | .xor32Reg d src => [mkSlot 0xac#8 d.code src.code 0 0]
  | .xor64Imm d imm => [mkSlot 0xa7#8 d.code 0 0 imm]
  | .xor64Reg d src => [mkSlot 0xaf#8 d.code src.code 0 0]
  | .lsh32Imm d imm => [mkSlot 0x64#8 d.code 0 0 imm]
  | .lsh32Reg d src => [mkSlot 0x6c#8 d.code src.code 0 0]
  | .lsh64Imm d imm => [mkSlot 0x67#8 d.code 0 0 imm]
  | .lsh64Reg d src => [mkSlot 0x6f#8 d.code src.code 0 0]
  | .rsh32Imm d imm => [mkSlot 0x74#8 d.code 0 0 imm]
  | .rsh32Reg d src => [mkSlot 0x7c#8 d.code src.code 0 0]
  | .rsh64Imm d imm => [mkSlot 0x77#8 d.code 0 0 imm]
  | .rsh64Reg d src => [mkSlot 0x7f#8 d.code src.code 0 0]
  | .arsh32Imm d imm => [mkSlot 0xc4#8 d.code 0 0 imm]
  | .arsh32Reg d src => [mkSlot 0xcc#8 d.code src.code 0 0]
  | .arsh64Imm d imm => [mkSlot 0xc7#8 d.code 0 0 imm]
  | .arsh64Reg d src => [mkSlot 0xcf#8 d.code src.code 0 0]
  | .mov32Imm d imm => [mkSlot 0xb4#8 d.code 0 0 imm]
  | .mov32Reg d src => [mkSlot 0xbc#8 d.code src.code 0 0]
  | .mov64Imm d imm => [mkSlot 0xb7#8 d.code 0 0 imm]
  | .mov64Reg d src => [mkSlot 0xbf#8 d.code src.code 0 0]
  | .hor64Imm d imm => [mkSlot 0xf7#8 d.code 0 0 imm]
  | .uhmul64Imm d imm => [mkSlot 0x36#8 d.code 0 0 imm]
  | .uhmul64Reg d src => [mkSlot 0x3e#8 d.code src.code 0 0]
  | .shmul64Imm d imm => [mkSlot 0xb6#8 d.code 0 0 imm]
  | .shmul64Reg d src => [mkSlot 0xbe#8 d.code src.code 0 0]
  | .sdiv32Imm d imm => [mkSlot 0xc6#8 d.code 0 0 imm]
  | .sdiv32Reg d src => [mkSlot 0xce#8 d.code src.code 0 0]
  | .sdiv64Imm d imm => [mkSlot 0xd6#8 d.code 0 0 imm]
  | .sdiv64Reg d src => [mkSlot 0xde#8 d.code src.code 0 0]
  | .srem32Imm d imm => [mkSlot 0xe6#8 d.code 0 0 imm]
  | .srem32Reg d src => [mkSlot 0xee#8 d.code src.code 0 0]
  | .srem64Imm d imm => [mkSlot 0xf6#8 d.code 0 0 imm]
  | .srem64Reg d src => [mkSlot 0xfe#8 d.code src.code 0 0]
  | .ja off => [mkSlot 0x05#8 0 0 off 0]
  | .jeqImm l imm off => [mkSlot 0x15#8 l.code 0 off imm]
  | .jeqReg l r off => [mkSlot 0x1d#8 l.code r.code off 0]
  | .jneImm l imm off => [mkSlot 0x55#8 l.code 0 off imm]
  | .jneReg l r off => [mkSlot 0x5d#8 l.code r.code off 0]
  | .jgtImm l imm off => [mkSlot 0x25#8 l.code 0 off imm]
  | .jgtReg l r off => [mkSlot 0x2d#8 l.code r.code off 0]
  | .jgeImm l imm off => [mkSlot 0x35#8 l.code 0 off imm]
  | .jgeReg l r off => [mkSlot 0x3d#8 l.code r.code off 0]
  | .jltImm l imm off => [mkSlot 0xa5#8 l.code 0 off imm]
  | .jltReg l r off => [mkSlot 0xad#8 l.code r.code off 0]
  | .jleImm l imm off => [mkSlot 0xb5#8 l.code 0 off imm]
  | .jleReg l r off => [mkSlot 0xbd#8 l.code r.code off 0]
  | .jsgtImm l imm off => [mkSlot 0x65#8 l.code 0 off imm]
  | .jsgtReg l r off => [mkSlot 0x6d#8 l.code r.code off 0]
  | .jsgeImm l imm off => [mkSlot 0x75#8 l.code 0 off imm]
  | .jsgeReg l r off => [mkSlot 0x7d#8 l.code r.code off 0]
  | .jsltImm l imm off => [mkSlot 0xc5#8 l.code 0 off imm]
  | .jsltReg l r off => [mkSlot 0xcd#8 l.code r.code off 0]
  | .jsleImm l imm off => [mkSlot 0xd5#8 l.code 0 off imm]
  | .jsleReg l r off => [mkSlot 0xdd#8 l.code r.code off 0]
  | .jsetImm l imm off => [mkSlot 0x45#8 l.code 0 off imm]
  | .jsetReg l r off => [mkSlot 0x4d#8 l.code r.code off 0]
  | .ldxb d base off => [mkSlot 0x71#8 d.code base.code off 0]
  | .ldxh d base off => [mkSlot 0x69#8 d.code base.code off 0]
  | .ldxw d base off => [mkSlot 0x61#8 d.code base.code off 0]
  | .ldxdw d base off => [mkSlot 0x79#8 d.code base.code off 0]
  | .stbImm base off imm => [mkSlot 0x72#8 base.code 0 off imm]
  | .sthImm base off imm => [mkSlot 0x6a#8 base.code 0 off imm]
  | .stwImm base off imm => [mkSlot 0x62#8 base.code 0 off imm]
  | .stdwImm base off imm => [mkSlot 0x7a#8 base.code 0 off imm]
  | .stbReg base off src => [mkSlot 0x73#8 base.code src.code off 0]
  | .sthReg base off src => [mkSlot 0x6b#8 base.code src.code off 0]
  | .stwReg base off src => [mkSlot 0x63#8 base.code src.code off 0]
  | .stdwReg base off src => [mkSlot 0x7b#8 base.code src.code off 0]
  | .lddw d value =>
    [mkSlot 0x18#8 d.code 0 0 (value.extractLsb' 0 32), mkSlot 0 0 0 0 (value.extractLsb' 32 32)]
  | .le16 d => [mkSlot 0xd4#8 d.code 0 0 16]
  | .le32 d => [mkSlot 0xd4#8 d.code 0 0 32]
  | .le64 d => [mkSlot 0xd4#8 d.code 0 0 64]
  | .be16 d => [mkSlot 0xdc#8 d.code 0 0 16]
  | .be32 d => [mkSlot 0xdc#8 d.code 0 0 32]
  | .be64 d => [mkSlot 0xdc#8 d.code 0 0 64]
  | .callImm sel key => [mkSlot 0x85#8 0 sel 0 key]
  | .callReg r =>
    match m.version with
    | .v2 => [mkSlot 0x8d#8 0 r.code 0 0]
    | .v1 => [mkSlot 0x8d#8 0 0 0 (r.code.setWidth 32)]
  | .exit => [mkSlot 0x95#8 0 0 0 0]
  | .addStk imm => [mkSlot 0x07#8 m.addStkDst 0 0 imm]

/-! ### The host's table words -/

/-- The instruction set under which a word of the opcode table is read: `add_stk`'s word with its flag on
(it takes precedence over `add64_imm`); else `m` itself if it has the instruction; else v1, then v2,
without dynamic frames (log 17). -/
def Isa.forTableWord (m : Isa) (w w2 : Slot) : Isa :=
  if opcodeField w = addStkOpcode ∧ dstField w = m.addStkDst then
    { m with version := .v2, dynamicStackFrames := true }
  else
    match decode m w (some w2) with
    | .ok _ => m
    | .error _ =>
      match decode { m with version := .v1, dynamicStackFrames := false } w (some w2) with
      | .ok _ => { m with version := .v1, dynamicStackFrames := false }
      | .error _ => { m with version := .v2, dynamicStackFrames := false }

/-- The first and second slot of an instruction of `nbits` bits numbered as spec/opcode_table.json numbers
them; every bit from `nbits` on is 0. -/
def tableSlots (nbits w : Nat) : Slot × Slot :=
  (BitVec.ofNat 64 (w % 2 ^ nbits), BitVec.ofNat 64 (w % 2 ^ nbits / 2 ^ 64))

/-- What the decoder reads from a word of the opcode table (log 17). -/
def decodeTableWord (nbits w : Nat) : Option Instr :=
  let s := tableSlots nbits w
  match decode (Isa.atReset.forTableWord s.1 s.2) s.1 (some s.2) with
  | .ok i => some i
  | .error _ => none

end Sys2Proof
end

