-- ==== Sys2Proof/Machine/Fetch.lean ====
section
/-! DEFINITION. Fetch (10_state R26, R27) and the loading of a program text (20_memory R45, 70_reset R452). -/

namespace Sys2Proof.Machine

/-- The slot at `pc` and the slot after it; none where `pc` is outside the program. Fetch reads the list
`PROGRAM`, never memory (R26, R27, R56). -/
def State.fetch (s : State) : Option (Slot × Option Slot) :=
  match s.pc with
  | .ofNat n => (s.params.program[n]?).map fun w => (w, s.params.program[n + 1]?)
  | .negSucc _ => none

/-- `pc` is the index of a slot of the program (R26). -/
def State.pcInProgram (s : State) : Prop := 0 ≤ s.pc ∧ s.pc < s.nSlots

/-- The budget is spent (R27 (1), R410). -/
def State.overBudget (s : State) : Bool :=
  match s.params.insnBudget with
  | some n => decide (n ≤ s.meter)
  | none => false

/-- The step is counted (R33). -/
def State.tick (s : State) : State := { s with meter := s.meter + 1 }

/-- A program text put into the machine: the list of slots, and its serialisation at `TEXT_VADDR`
(R45, R452 (2)). -/
def State.loadText (s : State) (text : List Slot) : State :=
  { s with
    params := { s.params with program := text }
    mem := s.mem.writeBytes s.params.textVaddr.toNat (programBytes text) }

/-- One instruction loaded as the program and the machine made ready to fetch it: the two slots its bits
fill, the instruction set that has it (log 17), `pc` at its slot, running, no budget (log 5). -/
def State.loadTableWord (s : State) (nbits w : Nat) : State :=
  let t := tableSlots nbits w
  { s.loadText [t.1, t.2] with
    pc := 0
    status := .running
    params :=
      { s.params with
        program := [t.1, t.2]
        isa := s.params.isa.forTableWord t.1 t.2
        insnBudget := none } }

end Sys2Proof.Machine
end

