-- ==== Sys2Proof/Machine/Step.lean ====
section
/-! DEFINITION. One step of the machine (10_state R27) and the host's way to place one instruction. -/

namespace Sys2Proof.Machine

/-- Execute what was fetched: a decoded instruction, or the fault of an illegal encoding (R27 (3), (4), R78). -/
def State.execSlot (s : State) (f : Slot × Option Slot) : Host.Outcome State Fault Refusal :=
  match decode s.params.isa f.1 f.2 with
  | .ok i => exec i s
  | .error _ => raise (.unsupportedInstruction s.pc) s

/-- One step (R27, R414): budget, count, fetch, decode, execute. Once the run has ended no step exists
(R32), which is the one thing `step` answers with a fault. -/
def step (s : State) : Host.Outcome State Fault Refusal :=
  match s.status with
  | .running =>
    if s.overBudget then raise (.exceededMaxInstructions s.pc) s
    else
      match s.tick.fetch with
      | some f => s.tick.execSlot f
      | none => raise (.executionOverrun s.pc) s.tick
  | .exited v => .fault (.runEnded (.exited v))
  | .faulted f => .fault (.runEnded (.faulted f))

/-- The state whose next step runs the instruction with these bits (log 5, log 17). -/
def State.withFetchWord (s : State) (nbits w : Nat) : State := s.loadTableWord nbits w

end Sys2Proof.Machine
end

