-- ==== Sys2Proof/Machine/Loader.lean ====
section
/-! DEFINITION. What happens before the first step: the verifier (30_encoding R78, R84) and the launch of a
program (70_reset R450 to R452, 60_exceptions R411). No step consults anything here. -/

namespace Sys2Proof.Machine

/-- The offset of a jump instruction; none for every other instruction (R84, R200). -/
def jumpOffset : Instr → Option Offset
  | .ja off => some off
  | .jeqImm _ _ off | .jeqReg _ _ off | .jneImm _ _ off | .jneReg _ _ off => some off
  | .jgtImm _ _ off | .jgtReg _ _ off | .jgeImm _ _ off | .jgeReg _ _ off => some off
  | .jltImm _ _ off | .jltReg _ _ off | .jleImm _ _ off | .jleReg _ _ off => some off
  | .jsgtImm _ _ off | .jsgtReg _ _ off | .jsgeImm _ _ off | .jsgeReg _ _ off => some off
  | .jsltImm _ _ off | .jsltReg _ _ off | .jsleImm _ _ off | .jsleReg _ _ off => some off
  | .jsetImm _ _ off | .jsetReg _ _ off => some off
  | .add32Imm _ _ | .add32Reg _ _ | .add64Imm _ _ | .add64Reg _ _ | .sub32Imm _ _ | .sub32Reg _ _
  | .sub64Imm _ _ | .sub64Reg _ _ | .mul32Imm _ _ | .mul32Reg _ _ | .mul64Imm _ _ | .mul64Reg _ _
  | .div32Imm _ _ | .div32Reg _ _ | .div64Imm _ _ | .div64Reg _ _ | .mod32Imm _ _ | .mod32Reg _ _
  | .mod64Imm _ _ | .mod64Reg _ _ | .neg32 _ | .neg64 _ | .or32Imm _ _ | .or32Reg _ _ | .or64Imm _ _
  | .or64Reg _ _ | .and32Imm _ _ | .and32Reg _ _ | .and64Imm _ _ | .and64Reg _ _ | .xor32Imm _ _
  | .xor32Reg _ _ | .xor64Imm _ _ | .xor64Reg _ _ | .lsh32Imm _ _ | .lsh32Reg _ _ | .lsh64Imm _ _
  | .lsh64Reg _ _ | .rsh32Imm _ _ | .rsh32Reg _ _ | .rsh64Imm _ _ | .rsh64Reg _ _ | .arsh32Imm _ _
  | .arsh32Reg _ _ | .arsh64Imm _ _ | .arsh64Reg _ _ | .mov32Imm _ _ | .mov32Reg _ _ | .mov64Imm _ _
  | .mov64Reg _ _ | .hor64Imm _ _ | .uhmul64Imm _ _ | .uhmul64Reg _ _ | .shmul64Imm _ _
  | .shmul64Reg _ _ | .sdiv32Imm _ _ | .sdiv32Reg _ _ | .sdiv64Imm _ _ | .sdiv64Reg _ _
  | .srem32Imm _ _ | .srem32Reg _ _ | .srem64Imm _ _ | .srem64Reg _ _ | .ldxb _ _ _ | .ldxh _ _ _
  | .ldxw _ _ _ | .ldxdw _ _ _ | .stbImm _ _ _ | .sthImm _ _ _ | .stwImm _ _ _ | .stdwImm _ _ _
  | .stbReg _ _ _ | .sthReg _ _ _ | .stwReg _ _ _ | .stdwReg _ _ _ | .lddw _ _ | .le16 _ | .le32 _
  | .le64 _ | .be16 _ | .be32 _ | .be64 _ | .callImm _ _ | .callReg _ | .exit | .addStk _ => none

/-- The opcode byte of `lddw`, which tells the length of an instruction (R70). -/
def lddwOpcode : BitVec 8 := 0x18

/-- Which slots, counted from `i`, are second slots of an `lddw` in a linear scan (R70). -/
def secondSlots : Nat → List Slot → List Nat
  | _, [] => []
  | _, [_] => []
  | i, w :: w2 :: rest =>
    if opcodeField w = lddwOpcode then (i + 1) :: secondSlots (i + 2) rest
    else secondSlots (i + 1) (w2 :: rest)

/-- What is wrong with a jump's target (R84, R203). -/
def checkTarget (nSlots : Nat) (seconds : List Nat) (t : Int) : Option VerifyReason :=
  match t with
  | .ofNat n =>
    if n < nSlots then if seconds.contains n then some .jumpIntoLddw else none else some .jumpOutside
  | .negSucc _ => some .jumpOutside

/-- What is wrong with the instruction at slot `i` (R84). -/
def checkSlot (m : Isa) (nSlots : Nat) (seconds : List Nat) (i : Nat) (w : Slot) (second : Option Slot) :
    Option VerifyReason :=
  match decode m w second with
  | .error _ => some .illegalEncoding
  | .ok ins =>
    if ins.wf then
      match jumpOffset ins with
      | some off => checkTarget nSlots seconds (jumpTarget i off)
      | none => none
    else some .illegalEncoding

/-- The first slot, from `i` on, that fails its check; second slots of an `lddw` are not checked (R84). -/
def scanSlots (m : Isa) (nSlots : Nat) (seconds : List Nat) : Nat → List Slot → Option (Nat × VerifyReason)
  | _, [] => none
  | i, w :: rest =>
    if seconds.contains i then scanSlots m nSlots seconds (i + 1) rest
    else
      match checkSlot m nSlots seconds i w rest.head? with
      | some why => some (i, why)
      | none => scanSlots m nSlots seconds (i + 1) rest

/-- The verifier's verdict on a program text (R84, R411): the first slot that fails, or none. -/
def verifier (m : Isa) (text : List Slot) : Option (Nat × VerifyReason) :=
  match text with
  | [] => some (0, .emptyProgram)
  | w :: rest => scanSlots m (w :: rest).length (secondSlots 0 (w :: rest)) 0 (w :: rest)

/-- What a loader and host supply before the first step (R3, R420 (1), R452): the parameters, those used
only at launch, the initial bytes of each region, and the arbitrary launch values of `r0` and `r2` to `r9`
(R36). The program region's text is not among its bytes: `launchState` places it (R45). -/
structure LoadImage where
  params : Params
  entryPc : Nat
  initSp : Word
  /-- `VERIFY`, with the value R3 gives it. -/
  verify : Bool := true
  regs : RegFile
  programData : List Byte
  stackBytes : List Byte
  heapBytes : List Byte
  inputBytes : List Byte
deriving DecidableEq, Repr

/-- The initial bytes of the regions, each cut to its size, then the program text (R45, R450; log 21). -/
def LoadImage.memory (g : LoadImage) : Memory :=
  let r := g.params.regions
  let m0 := Memory.writeBytes [] programStart (g.programData.take r.program.size)
  let m1 := m0.writeBytes stackStart (g.stackBytes.take r.stack.size)
  let m2 := m1.writeBytes heapStart (g.heapBytes.take r.heap.size)
  let m3 := m2.writeBytes inputStart (g.inputBytes.take r.input.size)
  m3.writeBytes g.params.textVaddr.toNat (programBytes g.params.program)

/-- The state when the first instruction is fetched (R35, R450). -/
def LoadImage.launchState (g : LoadImage) : State where
  regs := { g.regs with r1 := BitVec.ofNat 64 inputStart, r10 := g.initSp }
  pc := g.entryPc
  sp := g.initSp
  frames := []
  status := .running
  meter := 0
  mem := g.memory
  draws := 0
  params := g.params

/-- The first slot that `FUNCTIONS` gives and that no call may enter (R452 (4), R455). -/
def badFunction (nSlots : Nat) (seconds : List Nat) : List (BitVec 32 × Nat) → Option Nat
  | [] => none
  | (_, t) :: rest => if nSlots ≤ t ∨ seconds.contains t then some t else badFunction nSlots seconds rest

/-- The loader's checks when `VERIFY` is true: the verifier's, then `FUNCTIONS` and the entry point (R411,
R451, R452 (4), R455; log 19). -/
def LoadImage.check (g : LoadImage) : Option (Nat × VerifyReason) :=
  match verifier g.params.isa g.params.program with
  | some e => some e
  | none =>
    match badFunction g.params.nSlots (secondSlots 0 g.params.program) g.params.functions with
    | some t => some (t, .functionTarget)
    | none => if g.entryPc < g.params.nSlots then none else some (g.entryPc, .entryOutside)

/-- Launch a program, or refuse it: then there is no run (R78, R411, R452). -/
def launch (g : LoadImage) : Result :=
  if g.verify then
    match g.check with
    | some (slot, why) => .refused (.verifierError slot why)
    | none => .next g.launchState
  else .next g.launchState

/-- The image whose launch state is `State.reset` (log 2): no program, no bytes, registers 0. `VERIFY` has the
value R3 gives it, so that `launch` refuses this image, its program being empty (R84, R411); that `State.reset`
is nevertheless taken as a machine to step, as a launch with `VERIFY` off gives it, is the model's choice
(DESIGN CHOICE, log 2). -/
def LoadImage.atReset : LoadImage where
  params := Params.atReset
  entryPc := 0
  initSp := Params.atReset.defaultInitSp
  regs := ⟨0, 0, 0, 0, 0, 0, 0, 0, 0, 0, 0⟩
  programData := []
  stackBytes := []
  heapBytes := []
  inputBytes := []

end Sys2Proof.Machine
end

