-- ==== Sys2Proof/Safety.lean ====
section
/-! DEFINITION. What claims speak of: how a run ends, what one instruction leaves unchanged, the invariants of
the machine, and safe runs. -/

namespace Sys2Proof.Machine

/-! ### How a run stands -/

/-- The run has ended: no step exists (R32). -/
def State.ended (s : State) : Prop := s.status ≠ .running

/-- `n` steps lead from one state to another. -/
def Reaches : Nat → State → State → Prop
  | 0, s, t => s = t
  | n + 1, s, t => ∃ u, step s = .next u ∧ Reaches n u t

/-- A run from `s` is safe when no state it reaches has faulted (R400). -/
def SafeRun (s : State) : Prop := ∀ n t f, Reaches n s t → t.status ≠ .faulted f

/-! ### Frames of an instruction

Two states agree on everything an instruction does not write. Memory is compared by what it reads. -/

/-- Every byte of memory reads the same. -/
def SameMem (s t : State) : Prop := ∀ a, t.mem.read a = s.mem.read a

/-- Every byte outside the `n` bytes at `a` reads the same. -/
def SameMemOutside (a n : Nat) (s t : State) : Prop :=
  ∀ b, b < a ∨ a + n ≤ b → t.mem.read b = s.mem.read b

/-- The hidden state is the same: stack pointer, frames, status, meter, drawn values, parameters. -/
def SameHidden (s t : State) : Prop :=
  t.sp = s.sp ∧ t.frames = s.frames ∧ t.status = s.status ∧ t.meter = s.meter ∧ t.draws = s.draws
    ∧ t.params = s.params

/-- Every register but `r` is the same. -/
def SameRegsBut (r : Reg) (s t : State) : Prop := ∀ q, q ≠ r → t.reg q = s.reg q

/-- Every register is the same. -/
def SameRegs (s t : State) : Prop := ∀ q, t.reg q = s.reg q

/-- The outcome is a next state in which `d` holds a value with property `P`, the program counter has
advanced by one slot, and nothing else has changed (the frame of R107). -/
def WritesOnly (s : State) (d : Dst) (P : Word → Prop) (o : Host.Outcome State Fault Refusal) : Prop :=
  ∃ t, o = .next t ∧ P (t.reg d.reg) ∧ t.pc = s.pc + 1 ∧ SameRegsBut d.reg s t ∧ SameMem s t
    ∧ SameHidden s t

/-- The outcome is a next state that differs in the program counter alone (the frame of R201, R202). -/
def MovesPcOnly (s : State) (pc : Int) (o : Host.Outcome State Fault Refusal) : Prop :=
  ∃ t, o = .next t ∧ t.pc = pc ∧ SameRegs s t ∧ SameMem s t ∧ SameHidden s t

/-- The outcome is a next state in which the `n` bytes at `a` are those of `v`, least significant first,
the program counter has advanced by one slot, and nothing else has changed (R48). -/
def StoresOnly (s : State) (a n : Nat) (v : Word) (o : Host.Outcome State Fault Refusal) : Prop :=
  ∃ t, o = .next t ∧ (∀ i, i < n → t.mem.read (a + i) = v.extractLsb' (8 * i) 8) ∧ t.pc = s.pc + 1
    ∧ SameMemOutside a n s t ∧ SameRegs s t ∧ SameHidden s t

/-- The outcome is the fault `f`: a next state that differs in the status alone (R400). -/
def Faults (s : State) (f : RunFault) (o : Host.Outcome State Fault Refusal) : Prop :=
  o = .next { s with status := .faulted f }

/-- The index of the faulting instruction, which every fault records (R401, R412). -/
def RunFault.pc : RunFault → Int
  | .accessViolation pc _ _ _ => pc
  | .divideByZero pc => pc
  | .divideOverflow pc => pc
  | .unsupportedInstruction pc => pc
  | .executionOverrun pc => pc
  | .callDepthExceeded pc => pc
  | .callOutsideTextSegment pc _ => pc
  | .syscallError pc _ => pc
  | .exceededMaxInstructions pc => pc

/-! ### Values, bit by bit and byte by byte -/

/-- Bits 63:32 are copies of bit 31, or 0 (R103). -/
def UpperHalf (e : Ext) (v : Word) : Prop :=
  ∀ j, 32 ≤ j → j < 64 → v.getLsbD j = (e == .sext && v.getLsbD 31)

/-- `WritesOnly` of a 32-bit result widened as `ALU32_EXT` says (R102, R103): `P` speaks of its low half. -/
def Writes32 (s : State) (op : Alu32Op) (d : Dst) (P : BitVec 32 → Prop)
    (o : Host.Outcome State Fault Refusal) : Prop :=
  WritesOnly s d (fun v => P (v.setWidth 32) ∧ UpperHalf (extOf s.params.alu32Ext op) v) o

/-- Byte `i` of a word, byte 0 the least significant. -/
def byteOf (v : Word) (i : Nat) : Byte := v.extractLsb' (8 * i) 8

/-- Bit `j` of an immediate sign-extended to 64 bits. -/
def immBit (imm : Imm) (j : Nat) : Bool := imm.getLsbD (min j 31)

/-- An immediate sign-extended and then read as unsigned (R101, R201). -/
def immNat (imm : Imm) : Nat := (imm.toInt % 2 ^ 64).toNat

/-! ### Fields an opcode byte uses -/

/-- What an instruction reads of its slot beside the opcode byte, and whether it reads the next slot. -/
structure Uses where
  dst : Bool := false
  src : Bool := false
  offset : Bool := false
  imm : Bool := false
  second : Bool := false
deriving DecidableEq, Repr

/-- The fields the `Encoding` line of each rule lists as used, by opcode byte (R69, R71, R76, R77, R100,
R201, R240, R270, R297 to R299, R320); none for `exit` and for an unassigned byte. -/
def usesOf (v : Version) (op : BitVec 8) : Uses :=
  if op ∈ [0x84, 0x87] then { dst := true }
  else if op ∈ [0x04, 0x14, 0x24, 0x34, 0x94, 0x44, 0x54, 0xa4, 0x64, 0x74, 0xc4, 0xb4,
      0x07, 0x17, 0x27, 0x37, 0x97, 0x47, 0x57, 0xa7, 0x67, 0x77, 0xc7, 0xb7, 0xf7,
      0x36, 0xb6, 0xc6, 0xd6, 0xe6, 0xf6, 0xd4, 0xdc] then { dst := true, imm := true }
  else if op ∈ [0x0c, 0x1c, 0x2c, 0x3c, 0x9c, 0x4c, 0x5c, 0xac, 0x6c, 0x7c, 0xcc, 0xbc,
      0x0f, 0x1f, 0x2f, 0x3f, 0x9f, 0x4f, 0x5f, 0xaf, 0x6f, 0x7f, 0xcf, 0xbf,
      0x3e, 0xbe, 0xce, 0xde, 0xee, 0xfe] then { dst := true, src := true }
  else if op = 0x05 then { offset := true }
  else if op ∈ [0x15, 0x55, 0x25, 0x35, 0xa5, 0xb5, 0x65, 0x75, 0xc5, 0xd5, 0x45, 0x72, 0x6a, 0x62, 0x7a] then
    { dst := true, offset := true, imm := true }
  else if op ∈ [0x1d, 0x5d, 0x2d, 0x3d, 0xad, 0xbd, 0x6d, 0x7d, 0xcd, 0xdd, 0x4d,
      0x71, 0x69, 0x61, 0x79, 0x73, 0x6b, 0x63, 0x7b] then { dst := true, src := true, offset := true }
  else if op = 0x18 then { dst := true, src := true, imm := true, second := true }
  else if op = 0x85 then { src := true, imm := true }
  else if op = 0x8d then
    match v with
    | .v1 => { imm := true }
    | .v2 => { src := true }
  else {}

/-! ### Permitted accesses -/

/-- An access of `n` bytes at `a` is permitted (R41, R43, R44), in the words of R43. -/
def Permitted (g : Regions) (k : Access) (a n : Nat) : Prop :=
  ∃ start r, ((start = 0x100000000 ∧ r = g.program) ∨ (start = 0x200000000 ∧ r = g.stack)
      ∨ (start = 0x300000000 ∧ r = g.heap) ∨ (start = 0x400000000 ∧ r = g.input))
    ∧ start ≤ a ∧ a + n ≤ start + r.size
    ∧ ((k = .load ∧ (r.perm = .r ∨ r.perm = .rw)) ∨ (k = .store ∧ r.perm = .rw))

/-- The misalignment policy lets an access of `n` bytes at `a` through (R49). -/
def PolicyAllows (s : State) (a n : Nat) : Prop := s.params.misaligned = .fault → a % n = 0

/-! ### Calls -/

/-- The instruction is an internal call (R290). -/
def IsInternalCall (i : Instr) : Prop :=
  (∃ sel key, sel ≠ 0 ∧ i = .callImm sel key) ∨ ∃ r, i = .callReg r

/-- The outcome is the entry of the function at slot `n` (R291): the frame pushed, the frame pointer and
the stack pointer moved, and nothing else changed. -/
def EntersFunction (s : State) (n : Nat) (o : Host.Outcome State Fault Refusal) : Prop :=
  ∃ t, o = .next t ∧ t.pc = n
    ∧ t.frames = ⟨s.reg .r6, s.reg .r7, s.reg .r8, s.reg .r9, s.reg .r10, s.pc + 1⟩ :: s.frames
    ∧ t.sp = (if s.params.isa.dynamicStackFrames then s.sp else s.sp + s.params.frameStride)
    ∧ t.reg .r10 = t.sp ∧ SameRegsBut .r10 s t ∧ SameMem s t ∧ t.status = s.status
    ∧ t.meter = s.meter ∧ t.draws = s.draws ∧ t.params = s.params

/-! ### Invariants -/

/-- The frame pointers of the return frames, most recent first, each a stride below the one above: the
frame pointer `fp` is that of the running function (fixed frames, R291, R292). -/
def fpChain (stride : Word) : Word → List Frame → Prop
  | _, [] => True
  | fp, f :: rest => f.fp = fp - stride ∧ fpChain stride f.fp rest

/-- With fixed frames the hidden stack pointer is the frame pointer (R30), and the saved frame pointers
lie a stride apart. -/
def State.fixedFrames (s : State) : Prop :=
  s.params.isa.dynamicStackFrames = false →
    s.sp = s.reg .r10 ∧ fpChain s.params.frameStride (s.reg .r10) s.frames

/-- Every byte that memory lists lies in a region (R40). -/
def State.memMapped (s : State) : Prop := ∀ c ∈ s.mem, mapped s.params.regions c.1 = true

/-- Memory is in canonical form (log 4) and lists only bytes of the regions (R40). -/
def State.memInv (s : State) : Prop := s.mem.wf = true ∧ s.memMapped

/-- The call depth is within its limit (R31). -/
def State.depthInv (s : State) : Prop := s.depth ≤ s.params.maxCallDepth

/-- Every return address is a slot index or the index just after the last slot: `pc + 1` of a call (R291). -/
def State.retInv (s : State) : Prop := ∀ f ∈ s.frames, 0 < f.ret ∧ f.ret ≤ s.nSlots

/-- The machine's invariant: what every step from a state that has it keeps. -/
def State.Inv (s : State) : Prop := s.memInv ∧ s.depthInv ∧ s.fixedFrames ∧ s.retInv

end Sys2Proof.Machine
end

