-- ==== Sys2Proof/Certificates/Slice0/Obligations.lean ====
section
/-! DEFINITION. The statements for the provers (OBLIGATIONS.json). Every docstring names the rule of spec/. -/

open Sys2Proof Sys2Proof.Machine

/-! ### Launch and the step -/

/-- R35, R36, R450: what the machine is at reset. The model's choices in it: the parameters R3 leaves OPEN
and that `VERIFY` is off (log 2; with R3's value, on, the launch refuses the empty program, R84 and R411), no
program (log 5), the zeros of `r0` and `r2` to `r9` (log 3). -/
def Obligations.ResetIsTheLaunchStateOfTheEmptyImage : Prop :=
  launch { LoadImage.atReset with verify := false } = .next State.reset
    ∧ LoadImage.atReset.verify = true ∧ launch LoadImage.atReset = .refused (.verifierError 0 .emptyProgram)
    ∧ State.reset.pc = 0
    ∧ State.reset.reg .r1 = 0x400000000 ∧ State.reset.reg .r10 = State.reset.sp
    ∧ State.reset.sp = 0x200000000 + State.reset.params.frameStride ∧ State.reset.frames = []
    ∧ State.reset.status = .running ∧ State.reset.meter = 0 ∧ State.reset.params.wf = true

/-- R35, R36, R45, R450 to R452: a launch sets the state, and memory shows the program text and the initial
bytes of the image. That a byte the image does not give reads as 0 and that the text covers program data is the
model's choice (log 4, log 21). -/
def Obligations.LaunchSetsStateAndShowsProgramText : Prop :=
  ∀ (g : LoadImage) (s : State), launch g = .next s →
    s.pc = g.entryPc ∧ s.reg .r1 = 0x400000000 ∧ s.reg .r10 = g.initSp ∧ s.sp = g.initSp ∧ s.frames = []
      ∧ (∀ q, q ≠ .r1 → q ≠ .r10 → s.reg q = g.regs.get q)
      ∧ s.status = .running ∧ s.meter = 0 ∧ s.params = g.params ∧ s.mem.wf = true
      ∧ (∀ (i : Nat) (w : Slot), g.params.program[i]? = some w →
          s.mem.readBytes (g.params.textVaddr.toNat + 8 * i) 8 = slotBytes w)
      ∧ (g.params.wf = true →
          let r := g.params.regions
          let text := g.params.textVaddr.toNat
          (∀ i, i < r.program.size →
            (0x100000000 + i < text ∨ text + 8 * g.params.program.length ≤ 0x100000000 + i) →
            s.mem.read (0x100000000 + i) = g.programData.getD i 0)
          ∧ (∀ i, i < r.stack.size → s.mem.read (0x200000000 + i) = g.stackBytes.getD i 0)
          ∧ (∀ i, i < r.heap.size → s.mem.read (0x300000000 + i) = g.heapBytes.getD i 0)
          ∧ ∀ i, i < r.input.size → s.mem.read (0x400000000 + i) = g.inputBytes.getD i 0)

/-- R27 (2) to (4), R33: a step counts itself and executes the instruction decoded at `pc`. -/
def Obligations.StepRunsTheDecodedInstruction : Prop :=
  ∀ (s : State) (n : Nat) (w : Slot) (i : Instr), s.status = .running → s.overBudget = false →
    s.pc = n → s.params.program[n]? = some w → decode s.params.isa w s.params.program[n + 1]? = .ok i →
    step s = exec i { s with meter := s.meter + 1 }

/-- R27, R78, R406, R410, R414 (1) to (3): the faults of a step before an instruction executes, in order. -/
def Obligations.StepFaultsBeforeExecution : Prop :=
  ∀ s : State, s.status = .running →
    (∀ n, s.params.insnBudget = some n → n ≤ s.meter →
      Faults s (.exceededMaxInstructions s.pc) (step s))
    ∧ ((∀ n, s.params.insnBudget = some n → s.meter < n) →
        ((s.pc < 0 ∨ s.params.program.length ≤ s.pc) →
          Faults { s with meter := s.meter + 1 } (.executionOverrun s.pc) (step s))
        ∧ (∀ (n : Nat) (w : Slot) (e : Illegal), s.pc = n → s.params.program[n]? = some w →
            decode s.params.isa w s.params.program[n + 1]? = .error e →
            Faults { s with meter := s.meter + 1 } (.unsupportedInstruction s.pc) (step s)))

/-- R27, R32, R51, R413: every instruction answers a next state from every state, without changing the
parameters of the run; a step does so while the machine runs, and no step exists once the run has ended. -/
def Obligations.EveryInstructionAnswersANextState : Prop :=
  (∀ (i : Instr) (s : State), ∃ t, exec i s = .next t ∧ t.params = s.params)
    ∧ (∀ s : State, s.status = .running → ∃ t, step s = .next t ∧ t.params = s.params)
    ∧ ∀ s : State, s.status ≠ .running → step s = .fault (.runEnded s.status)

/-- R419: `exit` at depth 0 is the one normal end of a run, with `x[0]` as its result; then no step exists. -/
def Obligations.ExitAtDepthZeroIsTheOnlyNormalEnd : Prop :=
  (∀ s : State, s.frames = [] → exec .exit s = .next { s with status := .exited (s.reg .r0) })
    ∧ (∀ (s t : State) (v : Word), step s = .next t → t.status = .exited v →
        v = s.reg .r0 ∧ s.frames = [] ∧ t = { s with status := .exited v, meter := s.meter + 1 }
          ∧ ∃ (n : Nat) (w : Slot), s.pc = n ∧ s.params.program[n]? = some w
              ∧ decode s.params.isa w s.params.program[n + 1]? = .ok .exit)
    ∧ ∀ (s : State) (v : Word), s.status = .exited v → step s = .fault (.runEnded (.exited v))

/-- R400, R412, R415: a step that faults changes the status, and the meter unless the budget was spent,
and nothing else; the fault names the instruction at `pc`. -/
def Obligations.FaultsArePrecise : Prop :=
  ∀ (s t : State) (f : RunFault), step s = .next t → t.status = .faulted f →
    f.pc = s.pc
      ∧ t = { s with
              status := .faulted f
              meter := if f = .exceededMaxInstructions s.pc then s.meter else s.meter + 1 }

/-- R33, R410, R418: a step adds 1 to the meter whatever the instruction; a step the budget stops adds 0. -/
def Obligations.MeterCountsSteps : Prop :=
  ∀ s t : State, step s = .next t →
    ((∀ n, s.params.insnBudget = some n → s.meter < n) → t.meter = s.meter + 1)
      ∧ ∀ n, s.params.insnBudget = some n → n ≤ s.meter → t.meter = s.meter

/-- R410: with a budget of `n`, a run has at most `n` steps left, and the one that finds the budget spent. -/
def Obligations.BudgetBoundsTheRun : Prop :=
  ∀ (s t : State) (n k : Nat), s.params.insnBudget = some n → Reaches k s t → k ≤ n - s.meter + 1

/-! ### Encoding -/

/-- R61, R71: words written out from the slot format and the opcode map decode to what they stand for. -/
def Obligations.DecodedWordsOfTheSpec : Prop :=
  let v2 : Isa := ⟨.v2, false, 0, false⟩
  let dyn : Isa := ⟨.v2, true, 0, false⟩
  let v1 : Isa := ⟨.v1, false, 0, false⟩
  decode v2 0x0F12000000000000#64 none = .ok (.add64Reg .r1 .r2)
    ∧ decode v2 0x5510FFFD00000000#64 none = .ok (.jneImm .r1 0 0xFFFD)
    ∧ decode v2 0x7BA1FFF800000000#64 none = .ok (.stdwReg .r10 0xFFF8 .r1)
    ∧ decode v2 0x1810000055667788#64 (some 0x0000000011223344#64) = .ok (.lddw .r1 0x1122334455667788)
    ∧ decode v2 0xDC20000000000020#64 none = .ok (.be32 .r2)
    ∧ decode v2 0x8501000000000007#64 none = .ok (.callImm 1 7)
    ∧ decode v1 0x8D00000000000003#64 none = .ok (.callReg .r3)
    ∧ decode dyn 0x07000000FFFFFFC0#64 none = .ok (.addStk 0xFFFFFFC0)
    ∧ decode v1 0x07000000FFFFFFC0#64 none = .ok (.add64Imm .r0 0xFFFFFFC0)
    ∧ decode v2 0xD640000000000002#64 none = .ok (.sdiv64Imm .r4 2)
    ∧ decode v2 0x0410000000000001#64 none = .ok (.add32Imm .r1 1)
    ∧ decode v2 0x0C12000000000000#64 none = .ok (.add32Reg .r1 .r2)
    ∧ decode v2 0x611AFFF800000000#64 none = .ok (.ldxw .r1 .r10 0xFFF8)
    ∧ decode v2 0x9500000000000000#64 none = .ok .exit

/-- R61 to R65, R69, R73 to R75: decoding what the encoder writes gives the instruction back, for every
instruction the instruction set has with every legal operand, whatever slots follow it. -/
def Obligations.DecodeInvertsEncode : Prop :=
  ∀ (m : Isa) (i : Instr) (rest : List Slot), i.availableIn m = true → i.wf = true →
    decodeSlots m (encode m i ++ rest) = some (.ok i)

/-- R73 to R75: a decoded instruction is available in the instruction set and well-formed, but for the eight
divisions and remainders by an immediate 0, which their meanings turn into `DivideByZero` (log 7). R61, R69, R74,
R77: the slot has the opcode byte of the instruction's encoding and its value in every field it uses (`usesOf`),
so that no other register number decodes; an `lddw` has 0 in `src` and, but for its immediate, in its second slot. -/
def Obligations.DecodedInstructionsAreLegal : Prop :=
  ∀ (m : Isa) (w : Slot) (second : Option Slot) (i : Instr), decode m w second = .ok i →
    i.availableIn m = true
      ∧ (i.wf = true ∨ ∃ d, i ∈ [Instr.div32Imm d 0, .div64Imm d 0, .mod32Imm d 0, .mod64Imm d 0, .sdiv32Imm d 0,
          .sdiv64Imm d 0, .srem32Imm d 0, .srem64Imm d 0])
      ∧ (∃ h tail, encode m i = h :: tail ∧ opcodeField h = opcodeField w
          ∧ (let u := usesOf m.version (opcodeField w)
            (u.dst = true → dstField h = dstField w) ∧ (u.src = true → srcField h = srcField w)
              ∧ (u.offset = true → offsetField h = offsetField w) ∧ (u.imm = true → immField h = immField w)))
      ∧ ∀ d v, i = .lddw d v →
          srcField w = 0 ∧ ∃ w2, second = some w2 ∧ w2.extractLsb' 32 32 = 0 ∧ v = immField w2 ++ immField w

/-- R72: exactly 104 opcode bytes are assigned, and a slot with another one is refused by that name in
every instruction set. -/
def Obligations.UnassignedOpcodesAreRefused : Prop :=
  (opcodeTable.map (·.opcode)).Nodup ∧ opcodeTable.length = 104
    ∧ ∀ (m : Isa) (w : Slot) (second : Option Slot),
        decode m w second = .error .unassignedOpcode ↔ ∀ r ∈ opcodeTable, r.opcode ≠ opcodeField w

/-- R76: fields an instruction does not use take no part in decoding: two slots with one opcode byte that agree
in the fields it uses (`usesOf`) decode alike, be it to an instruction or to a refusal, in every family. -/
def Obligations.UnusedFieldsAreIgnored : Prop :=
  ∀ (m : Isa) (op : BitVec 8) (d d' s s' : BitVec 4) (off off' : Offset) (imm imm' : Imm) (x y : Option Slot),
    let u := usesOf m.version op
    (u.dst = true → d = d') → (u.src = true → s = s') → (u.offset = true → off = off') →
    (u.imm = true → imm = imm') → (u.second = true → x = y) →
    decode m (mkSlot op d s off imm) x = decode m (mkSlot op d' s' off' imm') y

/-- R69, R70: exactly the opcode byte 0x18 is a two-slot instruction, whose second half is the next slot; no
other instruction reads the next slot; and the slots a linear scan skips are those after each `lddw` it meets. -/
def Obligations.InstructionLengths : Prop :=
  (∀ (m : Isa) (w : Slot) (x : Option Slot) (i : Instr), decode m w x = .ok i →
    ((opcodeField w = 0x18 ↔ ∃ d v, i = .lddw d v)
      ∧ ∀ d v, i = .lddw d v → ∃ w2, x = some w2 ∧ v = immField w2 ++ immField w))
  ∧ (∀ (m : Isa) (w : Slot) (x y : Option Slot), opcodeField w ≠ 0x18 → decode m w x = decode m w y)
  ∧ ∀ text : List Slot, 0 ∉ secondSlots 0 text
      ∧ ∀ n, n + 1 ∈ secondSlots 0 text ↔
          n ∉ secondSlots 0 text ∧ n + 1 < text.length ∧ ∃ w, text[n]? = some w ∧ opcodeField w = 0x18

/-- R66: the eight bytes of a slot, each the bits R66 gives it, and the slot back from them. -/
def Obligations.SlotBytesRoundTrip : Prop :=
  ∀ w : Slot, ∃ b0 b1 b2 b3 b4 b5 b6 b7 : Byte, slotBytes w = [b0, b1, b2, b3, b4, b5, b6, b7]
    ∧ slotOfBytes b0 b1 b2 b3 b4 b5 b6 b7 = w ∧ b0 = w.extractLsb' 56 8
    ∧ b1 = w.extractLsb' 48 4 ++ w.extractLsb' 52 4
    ∧ b2 = w.extractLsb' 32 8 ∧ b3 = w.extractLsb' 40 8 ∧ b4 = w.extractLsb' 0 8 ∧ b5 = w.extractLsb' 8 8
    ∧ b6 = w.extractLsb' 16 8 ∧ b7 = w.extractLsb' 24 8

/-- R78, R84, R203: in a program the verifier accepts, every slot that is not the second slot of an `lddw`
decodes to a well-formed instruction, and every jump lands on such a slot. -/
def Obligations.VerifiedProgramsDecodeAndJumpInside : Prop :=
  ∀ (m : Isa) (text : List Slot), verifier m text = none →
    0 < text.length ∧ ∀ (n : Nat) (w : Slot), text[n]? = some w → n ∉ secondSlots 0 text →
      ∃ i, decode m w text[n + 1]? = .ok i ∧ i.wf = true ∧ i.availableIn m = true
        ∧ ∀ off, jumpOffset i = some off →
            ∃ k : Nat, (n : Int) + 1 + off.toInt = k ∧ k < text.length ∧ k ∉ secondSlots 0 text

/-- R84, R203: the converse of `VerifiedProgramsDecodeAndJumpInside`: a text of at least one slot whose
instruction slots all decode to well-formed instructions, and whose jumps all land on instruction slots, is
accepted: the verifier checks nothing else. -/
def Obligations.TextsThatMeetTheChecksAreAccepted : Prop :=
  ∀ (m : Isa) (text : List Slot), 0 < text.length →
    (∀ (n : Nat) (w : Slot), text[n]? = some w → n ∉ secondSlots 0 text →
      ∃ i, decode m w text[n + 1]? = .ok i ∧ i.wf = true
        ∧ ∀ off, jumpOffset i = some off →
            ∃ k : Nat, (n : Int) + 1 + off.toInt = k ∧ k < text.length ∧ k ∉ secondSlots 0 text) →
    verifier m text = none

/-- R78, R84, R411, R451, R452 (4), R455 (which checks a launch makes beside R84's is the model's choice, log 19):
with `VERIFY` true a launch gives a state exactly when the verifier accepts the program, `ENTRY_PC` is a slot of it
and every slot `FUNCTIONS` gives is one too and no second slot of an `lddw`; any failing check refuses the launch,
the verifier's with its own slot and reason. With `VERIFY` false a launch always gives a state. -/
def Obligations.LaunchObeysTheVerifier : Prop :=
  ∀ g : LoadImage,
    let program := g.params.program
    let targets := ∀ e ∈ g.params.functions, e.2 < program.length ∧ e.2 ∉ secondSlots 0 program
    let passes := verifier g.params.isa program = none ∧ targets ∧ g.entryPc < program.length
    (g.verify = true → ((∃ s, launch g = .next s) ↔ passes))
      ∧ (g.verify = true → ¬passes → ∃ slot why, launch g = .refused (.verifierError slot why))
      ∧ (∀ slot why, g.verify = true → verifier g.params.isa program = some (slot, why) →
          launch g = .refused (.verifierError slot why))
      ∧ (g.verify = false → ∃ s, launch g = .next s)

/-! ### ALU (40_alu) -/

/-- R101, R104, R107, R112, R113, R116, R117, R120, R121: 64-bit sum, difference and product. -/
def Obligations.Arith64Results : Prop :=
  ∀ (s : State) (d : Dst) (r : Reg) (imm : Imm),
    let a : Int := (s.reg d.reg).toNat
    let b : Int := (s.reg r).toNat
    WritesOnly s d (fun v => (v.toNat : Int) = (a + b) % 2 ^ 64) (exec (.add64Reg d r) s)
      ∧ WritesOnly s d (fun v => (v.toNat : Int) = (a + imm.toInt) % 2 ^ 64) (exec (.add64Imm d imm) s)
      ∧ WritesOnly s d (fun v => (v.toNat : Int) = (a - b) % 2 ^ 64) (exec (.sub64Reg d r) s)
      ∧ WritesOnly s d (fun v => (v.toNat : Int) = (a - imm.toInt) % 2 ^ 64) (exec (.sub64Imm d imm) s)
      ∧ WritesOnly s d (fun v => (v.toNat : Int) = (a * b) % 2 ^ 64) (exec (.mul64Reg d r) s)
      ∧ WritesOnly s d (fun v => (v.toNat : Int) = (a * imm.toInt) % 2 ^ 64) (exec (.mul64Imm d imm) s)

/-- R102 to R104, R107, R110, R111, R114, R115, R118, R119: 32-bit sum, difference and product. -/
def Obligations.Arith32Results : Prop :=
  ∀ (s : State) (d : Dst) (r : Reg) (imm : Imm),
    let a : Int := (s.reg d.reg).toNat
    let b : Int := (s.reg r).toNat
    Writes32 s .add32 d (fun v => (v.toNat : Int) = (a + b) % 2 ^ 32) (exec (.add32Reg d r) s)
      ∧ Writes32 s .add32 d (fun v => (v.toNat : Int) = (a + imm.toInt) % 2 ^ 32) (exec (.add32Imm d imm) s)
      ∧ Writes32 s .sub32 d (fun v => (v.toNat : Int) = (a - b) % 2 ^ 32) (exec (.sub32Reg d r) s)
      ∧ Writes32 s .sub32 d (fun v => (v.toNat : Int) = (a - imm.toInt) % 2 ^ 32) (exec (.sub32Imm d imm) s)
      ∧ Writes32 s .mul32 d (fun v => (v.toNat : Int) = (a * b) % 2 ^ 32) (exec (.mul32Reg d r) s)
      ∧ Writes32 s .mul32 d (fun v => (v.toNat : Int) = (a * imm.toInt) % 2 ^ 32) (exec (.mul32Imm d imm) s)

/-- R3, R103, R172: the table `ALU32_EXT` at reset: five mnemonics sign-extend, ten zero-extend. -/
def Obligations.Alu32ExtTable : Prop :=
  ∀ op : Alu32Op, extOf State.reset.params.alu32Ext op =
    if op ∈ [.add32, .sub32, .mul32, .sdiv32, .srem32] then .sext else .zext

/-- R107, R130, R131, R160: negation, and OR of an immediate into the upper half. -/
def Obligations.NegAndHorResults : Prop :=
  ∀ (s : State) (d : Dst) (imm : Imm),
    let a := s.reg d.reg
    WritesOnly s d (fun v => (v.toNat : Int) = -(a.toNat : Int) % 2 ^ 64) (exec (.neg64 d) s)
      ∧ Writes32 s .neg32 d (fun v => (v.toNat : Int) = -(a.toNat : Int) % 2 ^ 32) (exec (.neg32 d) s)
      ∧ WritesOnly s d
          (fun v => ∀ j, j < 64 → v.getLsbD j = (a.getLsbD j || (decide (32 ≤ j) && imm.getLsbD (j - 32))))
          (exec (.hor64Imm d imm) s)

/-- R101, R107, R134, R135, R138, R139, R142, R143: 64-bit OR, AND and exclusive OR, bit by bit. -/
def Obligations.Logic64Results : Prop :=
  ∀ (s : State) (d : Dst) (r : Reg) (imm : Imm),
    let a := s.reg d.reg
    let b := s.reg r
    WritesOnly s d (fun v => ∀ j, j < 64 → v.getLsbD j = (a.getLsbD j || b.getLsbD j)) (exec (.or64Reg d r) s)
      ∧ WritesOnly s d (fun v => ∀ j, j < 64 → v.getLsbD j = (a.getLsbD j || immBit imm j))
          (exec (.or64Imm d imm) s)
      ∧ WritesOnly s d (fun v => ∀ j, j < 64 → v.getLsbD j = (a.getLsbD j && b.getLsbD j))
          (exec (.and64Reg d r) s)
      ∧ WritesOnly s d (fun v => ∀ j, j < 64 → v.getLsbD j = (a.getLsbD j && immBit imm j))
          (exec (.and64Imm d imm) s)
      ∧ WritesOnly s d (fun v => ∀ j, j < 64 → v.getLsbD j = Bool.xor (a.getLsbD j) (b.getLsbD j))
          (exec (.xor64Reg d r) s)
      ∧ WritesOnly s d (fun v => ∀ j, j < 64 → v.getLsbD j = Bool.xor (a.getLsbD j) (immBit imm j))
          (exec (.xor64Imm d imm) s)

/-- R102, R103, R107, R132, R133, R136, R137, R140, R141: 32-bit OR, AND and exclusive OR, bit by bit. -/
def Obligations.Logic32Results : Prop :=
  ∀ (s : State) (d : Dst) (r : Reg) (imm : Imm),
    let a := s.reg d.reg
    let b := s.reg r
    Writes32 s .or32 d (fun v => ∀ j, j < 32 → v.getLsbD j = (a.getLsbD j || b.getLsbD j))
        (exec (.or32Reg d r) s)
      ∧ Writes32 s .or32 d (fun v => ∀ j, j < 32 → v.getLsbD j = (a.getLsbD j || imm.getLsbD j))
          (exec (.or32Imm d imm) s)
      ∧ Writes32 s .and32 d (fun v => ∀ j, j < 32 → v.getLsbD j = (a.getLsbD j && b.getLsbD j))
          (exec (.and32Reg d r) s)
      ∧ Writes32 s .and32 d (fun v => ∀ j, j < 32 → v.getLsbD j = (a.getLsbD j && imm.getLsbD j))
          (exec (.and32Imm d imm) s)
      ∧ Writes32 s .xor32 d (fun v => ∀ j, j < 32 → v.getLsbD j = Bool.xor (a.getLsbD j) (b.getLsbD j))
          (exec (.xor32Reg d r) s)
      ∧ Writes32 s .xor32 d (fun v => ∀ j, j < 32 → v.getLsbD j = Bool.xor (a.getLsbD j) (imm.getLsbD j))
          (exec (.xor32Imm d imm) s)

/-- R101 to R103, R107, R156 to R159: moves. -/
def Obligations.MoveResults : Prop :=
  ∀ (s : State) (d : Dst) (r : Reg) (imm : Imm),
    WritesOnly s d (fun v => v = s.reg r) (exec (.mov64Reg d r) s)
      ∧ WritesOnly s d (fun v => v.toInt = imm.toInt) (exec (.mov64Imm d imm) s)
      ∧ Writes32 s .mov32 d (fun v => v.toNat = (s.reg r).toNat % 2 ^ 32) (exec (.mov32Reg d r) s)
      ∧ Writes32 s .mov32 d (fun v => v = imm) (exec (.mov32Imm d imm) s)

/-- R106, R107, R146, R147, R150, R151, R154, R155: 64-bit shifts. An immediate above 63 is no instruction
(R75, R106): `DecodedInstructionsAreLegal` says that none decodes. -/
def Obligations.Shift64Results : Prop :=
  ∀ (s : State) (d : Dst) (r : Reg) (imm : Imm),
    let a := s.reg d.reg
    let c := (s.reg r).toNat % 64
    WritesOnly s d (fun v => v.toNat = a.toNat * 2 ^ c % 2 ^ 64) (exec (.lsh64Reg d r) s)
      ∧ WritesOnly s d (fun v => v.toNat = a.toNat / 2 ^ c) (exec (.rsh64Reg d r) s)
      ∧ WritesOnly s d (fun v => v.toInt = a.toInt / 2 ^ c) (exec (.arsh64Reg d r) s)
      ∧ (imm.toNat ≤ 63 →
          WritesOnly s d (fun v => v.toNat = a.toNat * 2 ^ imm.toNat % 2 ^ 64) (exec (.lsh64Imm d imm) s)
          ∧ WritesOnly s d (fun v => v.toNat = a.toNat / 2 ^ imm.toNat) (exec (.rsh64Imm d imm) s)
          ∧ WritesOnly s d (fun v => v.toInt = a.toInt / 2 ^ imm.toNat) (exec (.arsh64Imm d imm) s))

/-- R102, R103, R106, R107, R144, R145, R148, R149, R152, R153: 32-bit shifts. An immediate above 31 is no
instruction (R75, R106). -/
def Obligations.Shift32Results : Prop :=
  ∀ (s : State) (d : Dst) (r : Reg) (imm : Imm),
    let a := (s.reg d.reg).extractLsb' 0 32
    let c := (s.reg r).toNat % 32
    Writes32 s .lsh32 d (fun v => v.toNat = a.toNat * 2 ^ c % 2 ^ 32) (exec (.lsh32Reg d r) s)
      ∧ Writes32 s .rsh32 d (fun v => v.toNat = a.toNat / 2 ^ c) (exec (.rsh32Reg d r) s)
      ∧ Writes32 s .arsh32 d (fun v => v.toInt = a.toInt / 2 ^ c) (exec (.arsh32Reg d r) s)
      ∧ (imm.toNat ≤ 31 →
          Writes32 s .lsh32 d (fun v => v.toNat = a.toNat * 2 ^ imm.toNat % 2 ^ 32) (exec (.lsh32Imm d imm) s)
          ∧ Writes32 s .rsh32 d (fun v => v.toNat = a.toNat / 2 ^ imm.toNat) (exec (.rsh32Imm d imm) s)
          ∧ Writes32 s .arsh32 d (fun v => v.toInt = a.toInt / 2 ^ imm.toNat) (exec (.arsh32Imm d imm) s))

/-- R101, R105, R107, R124, R125, R128, R129: 64-bit unsigned quotient and remainder by a divisor not 0. -/
def Obligations.UnsignedDivision64Results : Prop :=
  ∀ (s : State) (d : Dst) (r : Reg) (imm : Imm),
    let a := s.reg d.reg
    (s.reg r ≠ 0 →
      WritesOnly s d (fun v => v.toNat = a.toNat / (s.reg r).toNat) (exec (.div64Reg d r) s)
      ∧ WritesOnly s d (fun v => v.toNat = a.toNat % (s.reg r).toNat) (exec (.mod64Reg d r) s))
    ∧ (imm ≠ 0 →
        WritesOnly s d (fun v => v.toNat = a.toNat / immNat imm) (exec (.div64Imm d imm) s)
        ∧ WritesOnly s d (fun v => v.toNat = a.toNat % immNat imm) (exec (.mod64Imm d imm) s))

/-- R102, R103, R105, R107, R122, R123, R126, R127: 32-bit unsigned quotient and remainder by a divisor
whose low half is not 0. -/
def Obligations.UnsignedDivision32Results : Prop :=
  ∀ (s : State) (d : Dst) (r : Reg) (imm : Imm),
    let a := (s.reg d.reg).extractLsb' 0 32
    let b := (s.reg r).extractLsb' 0 32
    (b ≠ 0 →
      Writes32 s .div32 d (fun v => v.toNat = a.toNat / b.toNat) (exec (.div32Reg d r) s)
      ∧ Writes32 s .mod32 d (fun v => v.toNat = a.toNat % b.toNat) (exec (.mod32Reg d r) s))
    ∧ (imm ≠ 0 →
        Writes32 s .div32 d (fun v => v.toNat = a.toNat / imm.toNat) (exec (.div32Imm d imm) s)
        ∧ Writes32 s .mod32 d (fun v => v.toNat = a.toNat % imm.toNat) (exec (.mod32Imm d imm) s))

/-- R105, R171, R403: a divisor of 0 raises `DivideByZero` in all sixteen forms and writes nothing. The
immediate forms with 0 are met only in an unverified program (log 7). -/
def Obligations.DivideByZeroFaults : Prop :=
  ∀ (s : State) (d : Dst) (r : Reg),
    (s.reg r = 0 → ∀ i ∈ [Instr.div64Reg d r, .mod64Reg d r, .sdiv64Reg d r, .srem64Reg d r],
      Faults s (.divideByZero s.pc) (exec i s))
    ∧ ((s.reg r).extractLsb' 0 32 = 0 →
        ∀ i ∈ [Instr.div32Reg d r, .mod32Reg d r, .sdiv32Reg d r, .srem32Reg d r],
          Faults s (.divideByZero s.pc) (exec i s))
    ∧ ∀ i ∈ [Instr.div64Imm d 0, .mod64Imm d 0, .sdiv64Imm d 0, .srem64Imm d 0, .div32Imm d 0, .mod32Imm d 0,
        .sdiv32Imm d 0, .srem32Imm d 0], Faults s (.divideByZero s.pc) (exec i s)

/-! ### Product, quotient, remainder (41_alu_pqr) -/

/-- R172 to R176: the high half of the unsigned and of the signed 128-bit product. -/
def Obligations.HighProductResults : Prop :=
  ∀ (s : State) (d : Dst) (r : Reg) (imm : Imm),
    let a := s.reg d.reg
    let b := s.reg r
    WritesOnly s d (fun v => v.toNat = a.toNat * b.toNat / 2 ^ 64) (exec (.uhmul64Reg d r) s)
      ∧ WritesOnly s d (fun v => v.toNat = a.toNat * immNat imm / 2 ^ 64) (exec (.uhmul64Imm d imm) s)
      ∧ WritesOnly s d (fun v => v.toInt = a.toInt * b.toInt / 2 ^ 64) (exec (.shmul64Reg d r) s)
      ∧ WritesOnly s d (fun v => v.toInt = a.toInt * imm.toInt / 2 ^ 64) (exec (.shmul64Imm d imm) s)

/-- R171, R172, R179, R180, R183, R184: 64-bit signed quotient, rounded toward zero, and remainder. -/
def Obligations.SignedDivision64Results : Prop :=
  ∀ (s : State) (d : Dst) (r : Reg) (imm : Imm),
    let a := (s.reg d.reg).toInt
    let b := (s.reg r).toInt
    let c := imm.toInt
    (b ≠ 0 → ¬(a = -2 ^ 63 ∧ b = -1) →
      WritesOnly s d (fun v => v.toInt = a.tdiv b) (exec (.sdiv64Reg d r) s)
      ∧ WritesOnly s d (fun v => v.toInt = a - a.tdiv b * b) (exec (.srem64Reg d r) s))
    ∧ (c ≠ 0 → ¬(a = -2 ^ 63 ∧ c = -1) →
        WritesOnly s d (fun v => v.toInt = a.tdiv c) (exec (.sdiv64Imm d imm) s)
        ∧ WritesOnly s d (fun v => v.toInt = a - a.tdiv c * c) (exec (.srem64Imm d imm) s))

/-- R171, R172, R177, R178, R181, R182: 32-bit signed quotient, rounded toward zero, and remainder. -/
def Obligations.SignedDivision32Results : Prop :=
  ∀ (s : State) (d : Dst) (r : Reg) (imm : Imm),
    let a := ((s.reg d.reg).extractLsb' 0 32).toInt
    let b := ((s.reg r).extractLsb' 0 32).toInt
    let c := imm.toInt
    (b ≠ 0 → ¬(a = -2 ^ 31 ∧ b = -1) →
      Writes32 s .sdiv32 d (fun v => v.toInt = a.tdiv b) (exec (.sdiv32Reg d r) s)
      ∧ Writes32 s .srem32 d (fun v => v.toInt = a - a.tdiv b * b) (exec (.srem32Reg d r) s))
    ∧ (c ≠ 0 → ¬(a = -2 ^ 31 ∧ c = -1) →
        Writes32 s .sdiv32 d (fun v => v.toInt = a.tdiv c) (exec (.sdiv32Imm d imm) s)
        ∧ Writes32 s .srem32 d (fun v => v.toInt = a - a.tdiv c * c) (exec (.srem32Imm d imm) s))

/-- R171, R404: the most negative value by -1 raises `DivideOverflow` in all eight forms. -/
def Obligations.DivideOverflowFaults : Prop :=
  ∀ (s : State) (d : Dst) (r : Reg),
    ((s.reg d.reg).toInt = -2 ^ 63 →
      ((s.reg r).toInt = -1 → ∀ i ∈ [Instr.sdiv64Reg d r, .srem64Reg d r],
        Faults s (.divideOverflow s.pc) (exec i s))
      ∧ ∀ i ∈ [Instr.sdiv64Imm d 0xFFFFFFFF, .srem64Imm d 0xFFFFFFFF],
          Faults s (.divideOverflow s.pc) (exec i s))
    ∧ (((s.reg d.reg).extractLsb' 0 32).toInt = -2 ^ 31 →
        (((s.reg r).extractLsb' 0 32).toInt = -1 → ∀ i ∈ [Instr.sdiv32Reg d r, .srem32Reg d r],
          Faults s (.divideOverflow s.pc) (exec i s))
        ∧ ∀ i ∈ [Instr.sdiv32Imm d 0xFFFFFFFF, .srem32Imm d 0xFFFFFFFF],
            Faults s (.divideOverflow s.pc) (exec i s))

/-! ### Jumps (42_jump) -/

/-- R200 to R226: a jump whose condition holds goes to `pc + 1 + offset`, any other to `pc + 1`, and
nothing else changes; the 64-bit operands are compared as unsigned or signed numbers, or masked. -/
def Obligations.JumpResults : Prop :=
  ∀ (s : State) (l r : Reg) (imm : Imm) (off : Offset),
    let a := s.reg l
    let b := s.reg r
    let goes : Prop → Host.Outcome State Fault Refusal → Prop := fun c o =>
      (c → MovesPcOnly s (s.pc + 1 + off.toInt) o) ∧ (¬c → MovesPcOnly s (s.pc + 1) o)
    goes True (exec (.ja off) s)
      ∧ goes (a.toInt = imm.toInt) (exec (.jeqImm l imm off) s) ∧ goes (a = b) (exec (.jeqReg l r off) s)
      ∧ goes (a.toInt ≠ imm.toInt) (exec (.jneImm l imm off) s) ∧ goes (a ≠ b) (exec (.jneReg l r off) s)
      ∧ goes (immNat imm < a.toNat) (exec (.jgtImm l imm off) s)
      ∧ goes (b.toNat < a.toNat) (exec (.jgtReg l r off) s)
      ∧ goes (immNat imm ≤ a.toNat) (exec (.jgeImm l imm off) s)
      ∧ goes (b.toNat ≤ a.toNat) (exec (.jgeReg l r off) s)
      ∧ goes (a.toNat < immNat imm) (exec (.jltImm l imm off) s)
      ∧ goes (a.toNat < b.toNat) (exec (.jltReg l r off) s)
      ∧ goes (a.toNat ≤ immNat imm) (exec (.jleImm l imm off) s)
      ∧ goes (a.toNat ≤ b.toNat) (exec (.jleReg l r off) s)
      ∧ goes (imm.toInt < a.toInt) (exec (.jsgtImm l imm off) s)
      ∧ goes (b.toInt < a.toInt) (exec (.jsgtReg l r off) s)
      ∧ goes (imm.toInt ≤ a.toInt) (exec (.jsgeImm l imm off) s)
      ∧ goes (b.toInt ≤ a.toInt) (exec (.jsgeReg l r off) s)
      ∧ goes (a.toInt < imm.toInt) (exec (.jsltImm l imm off) s)
      ∧ goes (a.toInt < b.toInt) (exec (.jsltReg l r off) s)
      ∧ goes (a.toInt ≤ imm.toInt) (exec (.jsleImm l imm off) s)
      ∧ goes (a.toInt ≤ b.toInt) (exec (.jsleReg l r off) s)
      ∧ goes (∃ j, j < 64 ∧ a.getLsbD j = true ∧ immBit imm j = true) (exec (.jsetImm l imm off) s)
      ∧ goes (∃ j, j < 64 ∧ a.getLsbD j = true ∧ b.getLsbD j = true) (exec (.jsetReg l r off) s)

/-! ### Memory (20_memory, 43_load_store) -/

/-- R43, R44: the access check is the one R43 words. -/
def Obligations.AccessCheckIsRegionContainment : Prop :=
  ∀ (g : Regions) (k : Access) (a n : Nat), permits g k a n = true ↔ Permitted g k a n

/-- R47: what `MemRead` answers. -/
def Obligations.MemReadResult : Prop :=
  ∀ (s : State) (a : Word) (sz : Width),
    (¬(PolicyAllows s a.toNat sz.bytes ∧ Permitted s.params.regions .load a.toNat sz.bytes) →
      s.memRead a sz = .error (.accessViolation s.pc a sz.bytes .load))
    ∧ (PolicyAllows s a.toNat sz.bytes → Permitted s.params.regions .load a.toNat sz.bytes →
        ∃ v, s.memRead a sz = .ok v
          ∧ (∀ i, i < sz.bytes → byteOf v i = s.mem.read (a.toNat + i))
          ∧ ∀ i, sz.bytes ≤ i → i < 8 → byteOf v i = 0)

/-- R48: what `MemWrite` does. That memory is in canonical form before and after is the model's own (DESIGN
CHOICE, log 4), not R48's. -/
def Obligations.MemWriteResult : Prop :=
  ∀ (s : State) (a : Word) (sz : Width) (v : Word), s.mem.wf = true →
    (¬(PolicyAllows s a.toNat sz.bytes ∧ Permitted s.params.regions .store a.toNat sz.bytes) →
      s.memWrite a sz v = .error (.accessViolation s.pc a sz.bytes .store))
    ∧ (PolicyAllows s a.toNat sz.bytes → Permitted s.params.regions .store a.toNat sz.bytes →
        ∃ m : Memory, s.memWrite a sz v = .ok { s with mem := m } ∧ m.wf = true
          ∧ (∀ i, i < sz.bytes → m.read (a.toNat + i) = byteOf v i)
          ∧ ∀ b, b < a.toNat ∨ a.toNat + sz.bytes ≤ b → m.read b = s.mem.read b)

/-- Log 4: in canonical form, memories that read the same are the same data. -/
def Obligations.CanonicalMemoriesThatReadTheSameAreEqual : Prop :=
  ∀ m n : Memory, m.wf = true → n.wf = true → (∀ a, m.read a = n.read a) → m = n

/-- R240, R241, R243 to R247: the four loads at a permitted address. -/
def Obligations.LoadResults : Prop :=
  ∀ (s : State) (d : Dst) (base : Reg) (off : Offset),
    let ea := s.address base off
    (ea.toNat : Int) = ((s.reg base).toNat + off.toInt) % 2 ^ 64
    ∧ ∀ p ∈ [(Instr.ldxb d base off, 1), (.ldxh d base off, 2), (.ldxw d base off, 4), (.ldxdw d base off, 8)],
        PolicyAllows s ea.toNat p.2 → Permitted s.params.regions .load ea.toNat p.2 →
        WritesOnly s d
          (fun v => (∀ i, i < p.2 → byteOf v i = s.mem.read (ea.toNat + i))
            ∧ ∀ i, p.2 ≤ i → i < 8 → byteOf v i = 0)
          (exec p.1 s)

/-- R240, R242, R243, R248 to R255: the eight stores at a permitted address write the low bytes there. -/
def Obligations.StoreResults : Prop :=
  ∀ (s : State) (base r : Reg) (off : Offset) (imm : Imm), s.mem.wf = true →
    let ea := s.address base off
    (ea.toNat : Int) = ((s.reg base).toNat + off.toInt) % 2 ^ 64
    ∧ (∀ p ∈ [(Instr.stbReg base off r, 1), (.sthReg base off r, 2), (.stwReg base off r, 4),
          (.stdwReg base off r, 8)],
        PolicyAllows s ea.toNat p.2 → Permitted s.params.regions .store ea.toNat p.2 →
        StoresOnly s ea.toNat p.2 (s.reg r) (exec p.1 s))
    ∧ (∀ p ∈ [(Instr.stbImm base off imm, 1), (.sthImm base off imm, 2), (.stwImm base off imm, 4),
          (.stdwImm base off imm, 8)],
        PolicyAllows s ea.toNat p.2 → Permitted s.params.regions .store ea.toNat p.2 →
        ∃ v : Word, v.toInt = imm.toInt ∧ StoresOnly s ea.toNat p.2 v (exec p.1 s))

/-- R43, R49, R243, R402: a load or store outside the permitted regions, or misaligned where the policy
faults, raises `AccessViolation` and does nothing. -/
def Obligations.AccessViolationFaults : Prop :=
  ∀ (s : State) (d : Dst) (base r : Reg) (off : Offset) (imm : Imm),
    let ea := s.address base off
    (∀ p ∈ [(Instr.ldxb d base off, 1), (.ldxh d base off, 2), (.ldxw d base off, 4), (.ldxdw d base off, 8)],
      ¬(PolicyAllows s ea.toNat p.2 ∧ Permitted s.params.regions .load ea.toNat p.2) →
      Faults s (.accessViolation s.pc ea p.2 .load) (exec p.1 s))
    ∧ ∀ p ∈ [(Instr.stbReg base off r, 1), (.sthReg base off r, 2), (.stwReg base off r, 4),
          (.stdwReg base off r, 8), (.stbImm base off imm, 1), (.sthImm base off imm, 2),
          (.stwImm base off imm, 4), (.stdwImm base off imm, 8)],
        ¬(PolicyAllows s ea.toNat p.2 ∧ Permitted s.params.regions .store ea.toNat p.2) →
        Faults s (.accessViolation s.pc ea p.2 .store) (exec p.1 s)

/-- R25, R256: `lddw` writes all 64 bits and passes over both slots. -/
def Obligations.LddwResult : Prop :=
  ∀ (s : State) (d : Dst) (value : Word),
    ∃ t, exec (.lddw d value) s = .next t ∧ t.reg d.reg = value ∧ t.pc = s.pc + 2
      ∧ SameRegsBut d.reg s t ∧ SameMem s t ∧ SameHidden s t

/-- R43, R56, R58: an instruction that is no syscall changes only bytes of regions with permission `rw`. -/
def Obligations.OnlyWritableBytesChange : Prop :=
  ∀ (i : Instr) (s t : State) (a : Nat), s.mem.wf = true → exec i s = .next t →
    (∀ key, i ≠ .callImm 0 key) → t.mem.read a ≠ s.mem.read a → Permitted s.params.regions .store a 1

/-- R34, R48, R293: memory is written by the stores and, through the host, by syscalls; by nothing else. -/
def Obligations.OnlyStoresAndSyscallsWriteMemory : Prop :=
  ∀ (i : Instr) (s t : State), exec i s = .next t → t.mem ≠ s.mem →
    (∃ key, i = .callImm 0 key)
      ∨ ∃ base r off imm, i ∈ [Instr.stbReg base off r, .sthReg base off r, .stwReg base off r,
          .stdwReg base off r, .stbImm base off imm, .sthImm base off imm, .stwImm base off imm,
          .stdwImm base off imm]

/-! ### Byte swaps (44_byteswap) -/

/-- R270 to R277: the byte order of the host keeps the low bytes, the other one reverses them; the bytes
above the size become 0. -/
def Obligations.ByteSwapResults : Prop :=
  ∀ (s : State) (d : Dst),
    let a := s.reg d.reg
    let kept : Nat → Word → Prop := fun n v =>
      ∀ i, i < 8 → byteOf v i = if i < n then byteOf a i else 0
    let reversed : Nat → Word → Prop := fun n v =>
      ∀ i, i < 8 → byteOf v i = if i < n then byteOf a (n - 1 - i) else 0
    (∀ p ∈ [(Instr.le16 d, 2), (.le32 d, 4), (.le64 d, 8)],
      WritesOnly s d (if s.params.hostEndian = .little then kept p.2 else reversed p.2) (exec p.1 s))
    ∧ ∀ p ∈ [(Instr.be16 d, 2), (.be32 d, 4), (.be64 d, 8)],
        WritesOnly s d (if s.params.hostEndian = .little then reversed p.2 else kept p.2) (exec p.1 s)

/-! ### Calls and returns (45_call_exit, 46_other_v2) -/

/-- R290, R291, R294, R297, R298: an internal call below the depth limit enters the function its key or
its register names. -/
def Obligations.InternalCallResults : Prop :=
  ∀ (s : State) (n : Nat), s.frames.length < s.params.maxCallDepth →
    (∀ (sel : BitVec 4) (key : BitVec 32), sel ≠ 0 → lookupFunction key s.params.functions = some n →
      EntersFunction s n (exec (.callImm sel key) s))
    ∧ ∀ r : Reg, (s.reg r).toNat = s.params.textVaddr.toNat + 8 * n → n < s.params.program.length →
        EntersFunction s n (exec (.callReg r) s)

/-- R291, R294, R297, R298, R407, R408, R414: the faults of calls, in their order of test. -/
def Obligations.CallFaults : Prop :=
  ∀ (s : State) (sel : BitVec 4) (key : BitVec 32) (r : Reg),
    (key ∉ s.params.syscalls → Faults s (.unsupportedInstruction s.pc) (exec (.callImm 0 key) s))
    ∧ (sel ≠ 0 → lookupFunction key s.params.functions = none →
        Faults s (.unsupportedInstruction s.pc) (exec (.callImm sel key) s))
    ∧ (s.params.maxCallDepth ≤ s.frames.length →
        (sel ≠ 0 → (∃ n, lookupFunction key s.params.functions = some n) →
          Faults s (.callDepthExceeded s.pc) (exec (.callImm sel key) s))
        ∧ Faults s (.callDepthExceeded s.pc) (exec (.callReg r) s))
    ∧ (s.frames.length < s.params.maxCallDepth →
        (∀ n, n < s.params.program.length → (s.reg r).toNat ≠ s.params.textVaddr.toNat + 8 * n) →
        Faults s (.callOutsideTextSegment s.pc (s.reg r)) (exec (.callReg r) s))

/-- R293, R409 (log 9, log 10; the error value's 64 bits are the model's choice, log 23): a syscall whose key
the host knows takes the host's answer whole, or its error and nothing. -/
def Obligations.SyscallResult : Prop :=
  ∀ (s : State) (key : BitVec 32), s.mem.wf = true → key ∈ s.params.syscalls →
    ∃ t, exec (.callImm 0 key) s = .next t
      ∧ ((∃ r0 ws, Config.hostAnswer s.draws key ⟨s.reg .r1, s.reg .r2, s.reg .r3, s.reg .r4, s.reg .r5⟩ s.mem
              = .ok r0 ws
            ∧ t.reg .r0 = r0 ∧ t.pc = s.pc + 1
            ∧ (∀ q ∈ [Reg.r6, .r7, .r8, .r9, .r10], t.reg q = s.reg q)
            ∧ t.sp = s.sp ∧ t.frames = s.frames ∧ t.status = s.status ∧ t.meter = s.meter
            ∧ t.params = s.params ∧ t.mem.wf = true
            ∧ (∀ a, (mapped s.params.regions a = false ∨ ∀ u ∈ ws, u.1.toNat ≠ a) →
                t.mem.read a = s.mem.read a)
            ∧ ∀ pre u post, ws = pre ++ u :: post → (∀ u' ∈ post, u'.1 ≠ u.1) →
                mapped s.params.regions u.1.toNat = true → t.mem.read u.1.toNat = u.2)
          ∨ ∃ e, Config.hostAnswer s.draws key ⟨s.reg .r1, s.reg .r2, s.reg .r3, s.reg .r4, s.reg .r5⟩ s.mem
              = .error e ∧ t = { s with status := .faulted (.syscallError s.pc e) })

/-- R292, R299: `exit` returns to the caller at depth above 0, and ends the run at depth 0. -/
def Obligations.ExitResults : Prop :=
  ∀ s : State,
    (∀ f rest, s.frames = f :: rest →
      ∃ t, exec .exit s = .next t ∧ t.pc = f.ret ∧ t.frames = rest
        ∧ t.sp = (if s.params.isa.dynamicStackFrames then s.sp else s.sp - s.params.frameStride)
        ∧ t.reg .r6 = f.r6 ∧ t.reg .r7 = f.r7 ∧ t.reg .r8 = f.r8 ∧ t.reg .r9 = f.r9 ∧ t.reg .r10 = f.fp
        ∧ (∀ q ∈ [Reg.r0, .r1, .r2, .r3, .r4, .r5], t.reg q = s.reg q)
        ∧ SameMem s t ∧ t.status = s.status ∧ t.meter = s.meter ∧ t.draws = s.draws ∧ t.params = s.params)
    ∧ (s.frames = [] → exec .exit s = .next { s with status := .exited (s.reg .r0) })

/-- R291, R292, R295: whatever the callee did, the return gives the caller its `r6` to `r9`, its frame
pointer, its frames and the instruction after the call, and with fixed frames its stack pointer. -/
def Obligations.ReturnRestoresTheCaller : Prop :=
  ∀ (i : Instr) (s c u t : State), IsInternalCall i → exec i s = .next c → c.status = .running →
    s.status = .running → u.frames = c.frames → u.params = s.params → exec .exit u = .next t →
    t.pc = s.pc + 1 ∧ t.frames = s.frames ∧ (∀ q ∈ [Reg.r6, .r7, .r8, .r9, .r10], t.reg q = s.reg q)
      ∧ (∀ q ∈ [Reg.r0, .r1, .r2, .r3, .r4, .r5], t.reg q = u.reg q)
      ∧ (u.sp = c.sp → t.sp = s.sp)

/-- R25, R30, R320: `add_stk` moves the hidden stack pointer and nothing else. -/
def Obligations.AddStkResult : Prop :=
  ∀ (s : State) (imm : Imm),
    ∃ t, exec (.addStk imm) s = .next t ∧ (t.sp.toNat : Int) = (s.sp.toNat + imm.toInt) % 2 ^ 64
      ∧ t.pc = s.pc + 1 ∧ SameRegs s t ∧ SameMem s t ∧ t.frames = s.frames ∧ t.status = s.status
      ∧ t.meter = s.meter ∧ t.draws = s.draws ∧ t.params = s.params

/-! ### Promises of the whole machine -/

/-- R21, R291: the frame pointer is written by internal calls and by `exit`, and by nothing else. -/
def Obligations.OnlyCallsAndExitWriteTheFramePointer : Prop :=
  ∀ (i : Instr) (s t : State), exec i s = .next t → t.reg .r10 ≠ s.reg .r10 → IsInternalCall i ∨ i = .exit

/-- R31: the return frames are pushed by an internal call and popped by `exit`, and by nothing else. -/
def Obligations.OnlyCallsPushAndExitPopsFrames : Prop :=
  ∀ (i : Instr) (s t : State), exec i s = .next t →
    t.frames = s.frames
      ∨ (IsInternalCall i ∧ t.frames =
          ⟨s.reg .r6, s.reg .r7, s.reg .r8, s.reg .r9, s.reg .r10, s.pc + 1⟩ :: s.frames)
      ∨ (i = .exit ∧ ∃ f, s.frames = f :: t.frames)

/-- R30: the hidden stack pointer is written by `add_stk` and, with fixed frames, by calls and returns. -/
def Obligations.WhoWritesTheStackPointer : Prop :=
  ∀ (i : Instr) (s t : State), exec i s = .next t → t.sp ≠ s.sp →
    (∃ imm, i = .addStk imm)
      ∨ (s.params.isa.dynamicStackFrames = false ∧ (IsInternalCall i ∨ i = .exit))

/-- R30, R31, R33: no instruction but a call, `exit` and `add_stk` can tell what the stack pointer, the
return frames and the meter hold: with others in their place it does the same. -/
def Obligations.HiddenStateIsInvisible : Prop :=
  ∀ (i : Instr) (s t : State) (sp : Word) (fs : List Frame) (n : Nat), ¬IsInternalCall i → i ≠ .exit →
    (∀ imm, i ≠ .addStk imm) → exec i s = .next t →
    exec i { s with sp := sp, frames := fs, meter := n } = .next { t with sp := sp, frames := fs, meter := n }

/-- R31, R40, R30, R291 (log 4): the invariant of the machine holds at reset. -/
def Obligations.InvariantHoldsAtReset : Prop := State.reset.Inv

/-- R30, R31, R35, R40, R42, R45, R450 (log 4): every launch with parameters that R3, R42 and R45 allow starts in
the invariant, with or without the verifier. -/
def Obligations.EveryLaunchEstablishesTheInvariant : Prop :=
  ∀ (g : LoadImage) (s : State), g.params.wf = true → launch g = .next s → s.Inv

/-- R30, R31, R40, R291, R292 (log 4): every step keeps the invariant: memory canonical and only in the
regions, the call depth within its limit, return addresses inside the program or just after it, and, with
fixed frames, the stack pointer equal to the frame pointer and the saved frame pointers a stride apart. -/
def Obligations.StepKeepsTheInvariant : Prop :=
  ∀ s t : State, s.Inv → step s = .next t → t.Inv
end

