-- ==== Sys2Proof/Laws/Decode.lean ====
section
/-! SUPPORT. The fields of an assembled slot, the register codes, and what decoding a slot can answer. -/

namespace Sys2Proof

theorem mkSlot_opcode (op : BitVec 8) (d s : BitVec 4) (off : Offset) (imm : Imm) :
    opcodeField (mkSlot op d s off imm) = op := by
  apply BitVec.eq_of_getLsbD_eq
  intro i hi
  simp only [opcodeField, mkSlot, BitVec.getLsbD_extractLsb', BitVec.getLsbD_append, hi, decide_true, Bool.true_and]
  rw [if_neg (by omega), if_neg (by omega), if_neg (by omega), if_neg (by omega)]
  congr 1; omega

theorem mkSlot_dst (op : BitVec 8) (d s : BitVec 4) (off : Offset) (imm : Imm) :
    dstField (mkSlot op d s off imm) = d := by
  apply BitVec.eq_of_getLsbD_eq
  intro i hi
  simp only [dstField, mkSlot, BitVec.getLsbD_extractLsb', BitVec.getLsbD_append, hi, decide_true, Bool.true_and]
  rw [if_neg (by omega), if_neg (by omega), if_neg (by omega), if_pos (by omega)]
  congr 1; omega

theorem mkSlot_src (op : BitVec 8) (d s : BitVec 4) (off : Offset) (imm : Imm) :
    srcField (mkSlot op d s off imm) = s := by
  apply BitVec.eq_of_getLsbD_eq
  intro i hi
  simp only [srcField, mkSlot, BitVec.getLsbD_extractLsb', BitVec.getLsbD_append, hi, decide_true, Bool.true_and]
  rw [if_neg (by omega), if_neg (by omega), if_pos (by omega)]
  congr 1; omega

theorem mkSlot_offset (op : BitVec 8) (d s : BitVec 4) (off : Offset) (imm : Imm) :
    offsetField (mkSlot op d s off imm) = off := by
  apply BitVec.eq_of_getLsbD_eq
  intro i hi
  simp only [offsetField, mkSlot, BitVec.getLsbD_extractLsb', BitVec.getLsbD_append, hi, decide_true, Bool.true_and]
  rw [if_neg (by omega), if_pos (by omega)]
  congr 1; omega

theorem mkSlot_imm (op : BitVec 8) (d s : BitVec 4) (off : Offset) (imm : Imm) :
    immField (mkSlot op d s off imm) = imm := by
  apply BitVec.eq_of_getLsbD_eq
  intro i hi
  simp only [immField, mkSlot, BitVec.getLsbD_extractLsb', BitVec.getLsbD_append, hi, decide_true, Bool.true_and]
  rw [if_pos (by omega)]
  congr 1; omega

@[simp] theorem reg_ofCode_code (r : Reg) : Reg.ofCode r.code = some r := by cases r <;> rfl

@[simp] theorem dst_ofCode_code (d : Dst) : Dst.ofCode d.code = some d := by cases d <;> rfl

/-- A register field that names a register holds its number (R74). -/
theorem reg_code_of_ofCode {c : BitVec 4} {r : Reg} (h : Reg.ofCode c = some r) : r.code = c := by
  revert h; revert c r; decide

/-- A destination field that names a destination holds its number (R74). -/
theorem dst_code_of_ofCode {c : BitVec 4} {d : Dst} (h : Dst.ofCode c = some d) : d.code = c := by
  revert h; revert c d; decide

/-- The row found for an opcode byte is a row of the list and has that byte. -/
theorem findRow_some {op : BitVec 8} {l : List OpcodeRow} {row : OpcodeRow} (h : findRow op l = some row) :
    row ∈ l ∧ row.opcode = op := by
  induction l with
  | nil => cases h
  | cons r l ih =>
    simp only [findRow] at h
    split at h
    · cases h; exact ⟨List.mem_cons_self, ‹_›⟩
    · exact ⟨List.mem_cons_of_mem _ (ih h).1, (ih h).2⟩

/-- A register operand that decodes is the register its field names. -/
theorem regOperand_ok {c : BitVec 4} {k : Reg → Except Illegal Instr} {i : Instr}
    (h : regOperand c k = .ok i) : ∃ r, Reg.ofCode c = some r ∧ k r = .ok i := by
  unfold regOperand at h
  split at h
  · rename_i r hr; exact ⟨r, hr, h⟩
  · cases h

/-- A destination operand that decodes is the destination its field names. -/
theorem dstOperand_ok {c : BitVec 4} {k : Dst → Except Illegal Instr} {i : Instr}
    (h : dstOperand c k = .ok i) : ∃ d, Dst.ofCode c = some d ∧ k d = .ok i := by
  unfold dstOperand at h
  split at h
  · rename_i d hd; exact ⟨d, hd, h⟩
  · cases h

/-- A slot that decodes is `add_stk`'s, or a row of the opcode map has its byte, is available, and builds it. -/
theorem decode_ok {m : Isa} {w : Slot} {second : Option Slot} {i : Instr} (h : decode m w second = .ok i) :
    (opcodeField w = addStkOpcode ∧ m.isAddStk (dstField w) = true ∧ i = .addStk (immField w))
      ∨ ∃ row, findRow (opcodeField w) opcodeTable = some row ∧ row.avail.inIsa m = true
          ∧ row.form.build m w second = .ok i := by
  unfold decode at h
  split at h
  · rename_i hs; exact .inl ⟨hs.1, hs.2, by simpa [eq_comm] using h⟩
  · split at h
    · cases h
    · rename_i row hrow
      split at h
      · rename_i hav; exact .inr ⟨row, hrow, hav, h⟩
      · cases h

end Sys2Proof
end

