-- ==== Sys2Proof/Laws/Memory.lean ====
section
/-! SUPPORT. Memory: every operation keeps the canonical form, and a read after a write gives what was
written there and what stood elsewhere. -/

namespace Sys2Proof.Machine

theorem Memory.wfFrom_cons {lo a : Nat} {v : Byte} {m : Memory} :
    Memory.wfFrom lo ((a, v) :: m) = true ↔ lo ≤ a ∧ v ≠ Memory.unlisted ∧ Memory.wfFrom (a + 1) m = true := by
  simp [Memory.wfFrom, and_assoc]

/-- A list canonical from a bound is so from any lower one. -/
theorem Memory.wfFrom_mono {lo lo' : Nat} {m : Memory} (h : lo' ≤ lo) (hm : Memory.wfFrom lo m = true) :
    Memory.wfFrom lo' m = true := by
  cases m with
  | nil => rfl
  | cons c m =>
    rw [Memory.wfFrom_cons] at hm ⊢
    exact ⟨le_trans h hm.1, hm.2⟩

/-- Below every listed address memory reads as unlisted. -/
theorem Memory.read_of_lt {lo a : Nat} {m : Memory} (hm : Memory.wfFrom lo m = true) (h : a < lo) :
    Memory.read m a = Memory.unlisted := by
  cases m with
  | nil => rfl
  | cons c m =>
    have := (Memory.wfFrom_cons.mp hm).1
    have h1 : a ≠ c.1 := by omega
    have h2 : a < c.1 := by omega
    simp [Memory.read, h1, h2]

theorem Memory.entry_wfFrom {lo a : Nat} {v : Byte} {m : Memory} (h : lo ≤ a)
    (hm : Memory.wfFrom (a + 1) m = true) : Memory.wfFrom lo (Memory.entry a v m) = true := by
  unfold Memory.entry
  split
  · exact Memory.wfFrom_mono (by omega) hm
  · rename_i hv
    exact Memory.wfFrom_cons.mpr ⟨h, hv, hm⟩

theorem Memory.read_entry {a : Nat} {v : Byte} {m : Memory} (hm : Memory.wfFrom (a + 1) m = true) (c : Nat) :
    Memory.read (Memory.entry a v m) c = if c = a then v else Memory.read m c := by
  unfold Memory.entry
  split
  · rename_i hv
    split
    · rename_i hc
      rw [hc, hv, Memory.read_of_lt hm (by omega)]
    · rfl
  · simp only [Memory.read]
    split
    · rfl
    · split
      · rw [Memory.read_of_lt hm (by omega)]
      · rfl

/-- A write keeps the canonical form. -/
theorem Memory.write_wfFrom {lo a : Nat} {v : Byte} {m : Memory} (h : lo ≤ a)
    (hm : Memory.wfFrom lo m = true) : Memory.wfFrom lo (Memory.write m a v) = true := by
  induction m generalizing lo with
  | nil => exact Memory.entry_wfFrom h rfl
  | cons c m ih =>
    obtain ⟨h1, h2, h3⟩ := Memory.wfFrom_cons.mp hm
    simp only [Memory.write]
    split
    · exact Memory.entry_wfFrom h (Memory.wfFrom_cons.mpr ⟨by omega, h2, h3⟩)
    · split
      · rename_i he
        exact Memory.entry_wfFrom h (he ▸ h3)
      · exact Memory.wfFrom_cons.mpr ⟨h1, h2, ih (by omega) h3⟩

/-- A read after a write: the byte written there, and every other byte as before. -/
theorem Memory.read_write {lo : Nat} {m : Memory} (hm : Memory.wfFrom lo m = true) (a : Nat) (v : Byte)
    (c : Nat) : Memory.read (Memory.write m a v) c = if c = a then v else Memory.read m c := by
  induction m generalizing lo with
  | nil => exact Memory.read_entry (by rfl) c
  | cons e m ih =>
    obtain ⟨h1, h2, h3⟩ := Memory.wfFrom_cons.mp hm
    simp only [Memory.write]
    split
    · exact Memory.read_entry (Memory.wfFrom_cons.mpr ⟨by omega, h2, h3⟩) c
    · split
      · rename_i he
        rw [Memory.read_entry (he ▸ h3) c]
        split
        · rfl
        · simp only [Memory.read]
          have : c ≠ e.1 := by omega
          simp only [if_neg this]
          split
          · exact Memory.read_of_lt h3 (by omega)
          · rfl
      · simp only [Memory.read, ih h3]
        split
        · have : c ≠ a := by omega
          simp [this]
        · split
          · have : c ≠ a := by omega
            simp [this]
          · rfl

theorem Memory.write_wf {m : Memory} (hm : m.wf = true) (a : Nat) (v : Byte) : (Memory.write m a v).wf = true :=
  Memory.write_wfFrom (Nat.zero_le a) hm

theorem Memory.writeBytes_wf {m : Memory} (hm : m.wf = true) (a : Nat) (bs : List Byte) :
    (m.writeBytes a bs).wf = true := by
  induction bs generalizing m a with
  | nil => exact hm
  | cons b bs ih => exact ih (Memory.write_wf hm a b) (a + 1)

/-- A read after a write of several bytes: the bytes written from `a` up, every other byte as before. -/
theorem Memory.read_writeBytes {m : Memory} (hm : m.wf = true) (a : Nat) (bs : List Byte) (c : Nat) :
    Memory.read (m.writeBytes a bs) c =
      if h : a ≤ c ∧ c - a < bs.length then bs[c - a]'h.2 else Memory.read m c := by
  induction bs generalizing m a with
  | nil => simp [Memory.writeBytes]
  | cons b bs ih =>
    simp only [Memory.writeBytes, ih (Memory.write_wf hm a b) (a + 1), Memory.read_write hm]
    by_cases hc : c = a
    · subst hc
      simp
    · by_cases hin : a ≤ c ∧ c - a < (b :: bs).length
      · have h1 : a + 1 ≤ c ∧ c - (a + 1) < bs.length := by
          simp only [List.length_cons] at hin; omega
        have h2 : c - a = (c - (a + 1)) + 1 := by omega
        rw [dif_pos h1, dif_pos hin]
        simp only [h2, List.getElem_cons_succ]
      · have h1 : ¬ (a + 1 ≤ c ∧ c - (a + 1) < bs.length) := by
          simp only [List.length_cons] at hin; omega
        rw [dif_neg h1, dif_neg hin, if_neg hc]

/-- Every address a write lists was listed before or is the address written. -/
theorem Memory.mem_write {m : Memory} {a : Nat} {v : Byte} {c : Host.Cell} (h : c ∈ Memory.write m a v) :
    c.1 = a ∨ c ∈ m := by
  induction m with
  | nil =>
    simp only [Memory.write, Memory.entry] at h
    split at h <;> simp_all
  | cons e m ih =>
    simp only [Memory.write, Memory.entry] at h
    split at h
    · split at h
      · exact .inr h
      · rcases List.mem_cons.mp h with h | h
        · exact .inl (by rw [h])
        · exact .inr h
    · split at h
      · split at h
        · exact .inr (List.mem_cons_of_mem _ h)
        · rcases List.mem_cons.mp h with h | h
          · exact .inl (by rw [h])
          · exact .inr (List.mem_cons_of_mem _ h)
      · rcases List.mem_cons.mp h with h | h
        · exact .inr (by simp [h])
        · rcases ih h with h | h
          · exact .inl h
          · exact .inr (by simp [h])

theorem Memory.mem_writeBytes {m : Memory} {a : Nat} {bs : List Byte} {c : Host.Cell}
    (h : c ∈ m.writeBytes a bs) : (a ≤ c.1 ∧ c.1 < a + bs.length) ∨ c ∈ m := by
  induction bs generalizing m a with
  | nil => exact .inr h
  | cons b bs ih =>
    rcases ih h with h | h
    · exact .inl ⟨by omega, by simp only [List.length_cons]; omega⟩
    · rcases Memory.mem_write h with h | h
      · exact .inl ⟨by omega, by simp only [List.length_cons]; omega⟩
      · exact .inr h

/-- A host function's writes keep the canonical form. -/
theorem hostWrites_wf (g : Regions) {m : Memory} (hm : m.wf = true) (ws : List (Word × Byte)) :
    (hostWrites g m ws).wf = true := by
  induction ws generalizing m with
  | nil => exact hm
  | cons w ws ih =>
    simp only [hostWrites]
    split
    · exact ih (Memory.write_wf hm _ _)
    · exact ih hm

/-- A host function lists no byte outside the regions that was not listed before. -/
theorem mem_hostWrites (g : Regions) {m : Memory} {ws : List (Word × Byte)} {c : Host.Cell}
    (h : c ∈ hostWrites g m ws) : mapped g c.1 = true ∨ c ∈ m := by
  induction ws generalizing m with
  | nil => exact .inr h
  | cons w ws ih =>
    simp only [hostWrites] at h
    split at h
    · rename_i hw
      rcases ih h with h | h
      · exact .inl h
      · rcases Memory.mem_write h with h | h
        · exact .inl (h ▸ hw)
        · exact .inr h
    · exact ih h

end Sys2Proof.Machine
end

