-- ==== Sys2Proof/Laws/State.lean ====
section
/-! SUPPORT. The small lemmas of the state record: one for each field of each update, true by `rfl`, and the
register file's read after write. -/

namespace Sys2Proof.Machine

/-! ### `State.setReg` -/

@[simp] theorem State.setReg_regs (s : State) (r : Reg) (v : Word) : (s.setReg r v).regs = s.regs.set r v := rfl
@[simp] theorem State.setReg_pc (s : State) (r : Reg) (v : Word) : (s.setReg r v).pc = s.pc := rfl
@[simp] theorem State.setReg_sp (s : State) (r : Reg) (v : Word) : (s.setReg r v).sp = s.sp := rfl
@[simp] theorem State.setReg_frames (s : State) (r : Reg) (v : Word) : (s.setReg r v).frames = s.frames := rfl
@[simp] theorem State.setReg_status (s : State) (r : Reg) (v : Word) : (s.setReg r v).status = s.status := rfl
@[simp] theorem State.setReg_meter (s : State) (r : Reg) (v : Word) : (s.setReg r v).meter = s.meter := rfl
@[simp] theorem State.setReg_mem (s : State) (r : Reg) (v : Word) : (s.setReg r v).mem = s.mem := rfl
@[simp] theorem State.setReg_draws (s : State) (r : Reg) (v : Word) : (s.setReg r v).draws = s.draws := rfl
@[simp] theorem State.setReg_params (s : State) (r : Reg) (v : Word) : (s.setReg r v).params = s.params := rfl

/-! ### `State.setPc` -/

@[simp] theorem State.setPc_regs (s : State) (t : Int) : (s.setPc t).regs = s.regs := rfl
@[simp] theorem State.setPc_pc (s : State) (t : Int) : (s.setPc t).pc = t := rfl
@[simp] theorem State.setPc_sp (s : State) (t : Int) : (s.setPc t).sp = s.sp := rfl
@[simp] theorem State.setPc_frames (s : State) (t : Int) : (s.setPc t).frames = s.frames := rfl
@[simp] theorem State.setPc_status (s : State) (t : Int) : (s.setPc t).status = s.status := rfl
@[simp] theorem State.setPc_meter (s : State) (t : Int) : (s.setPc t).meter = s.meter := rfl
@[simp] theorem State.setPc_mem (s : State) (t : Int) : (s.setPc t).mem = s.mem := rfl
@[simp] theorem State.setPc_draws (s : State) (t : Int) : (s.setPc t).draws = s.draws := rfl
@[simp] theorem State.setPc_params (s : State) (t : Int) : (s.setPc t).params = s.params := rfl

/-! ### `State.advance` -/

@[simp] theorem State.advance_regs (s : State) : s.advance.regs = s.regs := rfl
@[simp] theorem State.advance_pc (s : State) : s.advance.pc = s.pc + 1 := rfl
@[simp] theorem State.advance_sp (s : State) : s.advance.sp = s.sp := rfl
@[simp] theorem State.advance_frames (s : State) : s.advance.frames = s.frames := rfl
@[simp] theorem State.advance_status (s : State) : s.advance.status = s.status := rfl
@[simp] theorem State.advance_meter (s : State) : s.advance.meter = s.meter := rfl
@[simp] theorem State.advance_mem (s : State) : s.advance.mem = s.mem := rfl
@[simp] theorem State.advance_draws (s : State) : s.advance.draws = s.draws := rfl
@[simp] theorem State.advance_params (s : State) : s.advance.params = s.params := rfl

/-! ### `State.writeDst` -/

@[simp] theorem State.writeDst_regs (s : State) (d : Dst) (v : Word) : (s.writeDst d v).regs = s.regs.set d.reg v := rfl
@[simp] theorem State.writeDst_pc (s : State) (d : Dst) (v : Word) : (s.writeDst d v).pc = s.pc + 1 := rfl
@[simp] theorem State.writeDst_sp (s : State) (d : Dst) (v : Word) : (s.writeDst d v).sp = s.sp := rfl
@[simp] theorem State.writeDst_frames (s : State) (d : Dst) (v : Word) : (s.writeDst d v).frames = s.frames := rfl
@[simp] theorem State.writeDst_status (s : State) (d : Dst) (v : Word) : (s.writeDst d v).status = s.status := rfl
@[simp] theorem State.writeDst_meter (s : State) (d : Dst) (v : Word) : (s.writeDst d v).meter = s.meter := rfl
@[simp] theorem State.writeDst_mem (s : State) (d : Dst) (v : Word) : (s.writeDst d v).mem = s.mem := rfl
@[simp] theorem State.writeDst_draws (s : State) (d : Dst) (v : Word) : (s.writeDst d v).draws = s.draws := rfl
@[simp] theorem State.writeDst_params (s : State) (d : Dst) (v : Word) : (s.writeDst d v).params = s.params := rfl

/-! ### `State.faultWith` -/

@[simp] theorem State.faultWith_regs (s : State) (f : RunFault) : (s.faultWith f).regs = s.regs := rfl
@[simp] theorem State.faultWith_pc (s : State) (f : RunFault) : (s.faultWith f).pc = s.pc := rfl
@[simp] theorem State.faultWith_sp (s : State) (f : RunFault) : (s.faultWith f).sp = s.sp := rfl
@[simp] theorem State.faultWith_frames (s : State) (f : RunFault) : (s.faultWith f).frames = s.frames := rfl
@[simp] theorem State.faultWith_status (s : State) (f : RunFault) : (s.faultWith f).status = .faulted f := rfl
@[simp] theorem State.faultWith_meter (s : State) (f : RunFault) : (s.faultWith f).meter = s.meter := rfl
@[simp] theorem State.faultWith_mem (s : State) (f : RunFault) : (s.faultWith f).mem = s.mem := rfl
@[simp] theorem State.faultWith_draws (s : State) (f : RunFault) : (s.faultWith f).draws = s.draws := rfl
@[simp] theorem State.faultWith_params (s : State) (f : RunFault) : (s.faultWith f).params = s.params := rfl

/-! ### `State.tick` -/

@[simp] theorem State.tick_regs (s : State) : s.tick.regs = s.regs := rfl
@[simp] theorem State.tick_pc (s : State) : s.tick.pc = s.pc := rfl
@[simp] theorem State.tick_sp (s : State) : s.tick.sp = s.sp := rfl
@[simp] theorem State.tick_frames (s : State) : s.tick.frames = s.frames := rfl
@[simp] theorem State.tick_status (s : State) : s.tick.status = s.status := rfl
@[simp] theorem State.tick_meter (s : State) : s.tick.meter = s.meter + 1 := rfl
@[simp] theorem State.tick_mem (s : State) : s.tick.mem = s.mem := rfl
@[simp] theorem State.tick_draws (s : State) : s.tick.draws = s.draws := rfl
@[simp] theorem State.tick_params (s : State) : s.tick.params = s.params := rfl

/-! ### `State.popFrame` -/

@[simp] theorem State.popFrame_regs (s : State) (f : Frame) (rest : List Frame) : (s.popFrame f rest).regs = s.regs.restore f := rfl
@[simp] theorem State.popFrame_pc (s : State) (f : Frame) (rest : List Frame) : (s.popFrame f rest).pc = f.ret := rfl
@[simp] theorem State.popFrame_sp (s : State) (f : Frame) (rest : List Frame) : (s.popFrame f rest).sp = s.callerSp := rfl
@[simp] theorem State.popFrame_frames (s : State) (f : Frame) (rest : List Frame) : (s.popFrame f rest).frames = rest := rfl
@[simp] theorem State.popFrame_status (s : State) (f : Frame) (rest : List Frame) : (s.popFrame f rest).status = s.status := rfl
@[simp] theorem State.popFrame_meter (s : State) (f : Frame) (rest : List Frame) : (s.popFrame f rest).meter = s.meter := rfl
@[simp] theorem State.popFrame_mem (s : State) (f : Frame) (rest : List Frame) : (s.popFrame f rest).mem = s.mem := rfl
@[simp] theorem State.popFrame_draws (s : State) (f : Frame) (rest : List Frame) : (s.popFrame f rest).draws = s.draws := rfl
@[simp] theorem State.popFrame_params (s : State) (f : Frame) (rest : List Frame) : (s.popFrame f rest).params = s.params := rfl

/-! ### Reading registers -/

@[simp] theorem RegFile.get_set_self (g : RegFile) (r : Reg) (v : Word) : (g.set r v).get r = v := by
  cases r <;> rfl

theorem RegFile.get_set_ne (g : RegFile) {q r : Reg} (v : Word) (h : q ≠ r) : (g.set r v).get q = g.get q := by
  cases r <;> cases q <;> first | rfl | exact absurd rfl h

theorem RegFile.get_set (g : RegFile) (q r : Reg) (v : Word) :
    (g.set r v).get q = if q = r then v else g.get q := by
  by_cases h : q = r
  · subst h; simp
  · simp [h, RegFile.get_set_ne g v h]

/-- Two register files that read alike are equal. -/
theorem RegFile.ext_get {g g' : RegFile} (h : ∀ r, g.get r = g'.get r) : g = g' := by
  cases g; cases g'
  simp only [RegFile.mk.injEq]
  exact ⟨h .r0, h .r1, h .r2, h .r3, h .r4, h .r5, h .r6, h .r7, h .r8, h .r9, h .r10⟩

theorem State.reg_eq (s : State) (r : Reg) : s.reg r = s.regs.get r := rfl

@[simp] theorem State.setReg_reg_self (s : State) (r : Reg) (v : Word) : (s.setReg r v).reg r = v := by
  simp [State.reg]

theorem State.setReg_reg_ne (s : State) {q r : Reg} (v : Word) (h : q ≠ r) : (s.setReg r v).reg q = s.reg q := by
  simp [State.reg, RegFile.get_set_ne _ _ h]

@[simp] theorem State.setPc_reg (s : State) (t : Int) (r : Reg) : (s.setPc t).reg r = s.reg r := rfl
@[simp] theorem State.advance_reg (s : State) (r : Reg) : s.advance.reg r = s.reg r := rfl
@[simp] theorem State.faultWith_reg (s : State) (f : RunFault) (r : Reg) : (s.faultWith f).reg r = s.reg r := rfl
@[simp] theorem State.tick_reg (s : State) (r : Reg) : s.tick.reg r = s.reg r := rfl

@[simp] theorem State.writeDst_reg_self (s : State) (d : Dst) (v : Word) : (s.writeDst d v).reg d.reg = v := by
  simp [State.reg]

theorem State.writeDst_reg_ne (s : State) {q : Reg} {d : Dst} (v : Word) (h : q ≠ d.reg) :
    (s.writeDst d v).reg q = s.reg q := by
  simp [State.reg, RegFile.get_set_ne _ _ h]

/-- No destination is the frame pointer (R21). -/
@[simp] theorem dst_reg_ne_fp (d : Dst) : d.reg ≠ .r10 := by cases d <;> decide

@[simp] theorem RegFile.get_restore_fp (g : RegFile) (f : Frame) : (g.restore f).get .r10 = f.fp := rfl

@[simp] theorem RegFile.get_afterSyscall_fp (g : RegFile) (v : Word) (n : Nat) :
    (g.afterSyscall v n).get .r10 = g.get .r10 := rfl

end Sys2Proof.Machine
end

