-- ==== Sys2Proof/Laws/Ops.lean ====
section
/-! SUPPORT. One lemma for each shared operation: everything it can do when it answers. -/

namespace Sys2Proof.Machine

/-- `raise` answers the state whose status records the fault. -/
theorem raise_next {f : RunFault} {s t : State} : raise f s = .next t ↔ t = s.faultWith f := by
  simp [raise, eq_comm]

/-- An instruction that may fault ends in its writes, or in the fault and nothing else. -/
theorem State.finish_next {s t : State} {r : Except RunFault State} (h : s.finish r = .next t) :
    r = .ok t ∨ ∃ f, r = .error f ∧ t = s.faultWith f := by
  cases r with
  | ok u => left; simpa [State.finish] using h
  | error f => exact .inr ⟨f, rfl, by simpa [State.finish, raise, eq_comm] using h⟩

/-- A passed access check: aligned as the policy asks, and permitted. -/
theorem State.checkAccess_ok {s : State} {k : Access} {a : Word} {sz : Width} {u : Unit}
    (h : s.checkAccess k a sz = .ok u) :
    s.misaligned a sz = false ∧ permits s.params.regions k a.toNat sz.bytes = true := by
  unfold State.checkAccess at h
  split at h
  · cases h
  · split at h
    · rename_i h1 h2; exact ⟨by simpa using h1, h2⟩
    · cases h

/-- A failed access check names the access. -/
theorem State.checkAccess_error {s : State} {k : Access} {a : Word} {sz : Width} {f : RunFault}
    (h : s.checkAccess k a sz = .error f) : f = .accessViolation s.pc a sz.bytes k := by
  unfold State.checkAccess at h
  split at h
  · simpa [eq_comm] using h
  · split at h
    · cases h
    · simpa [eq_comm] using h

/-- A load that succeeds reads the bytes and changes nothing. -/
theorem State.memRead_ok {s : State} {a v : Word} {sz : Width} (h : s.memRead a sz = .ok v) :
    s.misaligned a sz = false ∧ permits s.params.regions .load a.toNat sz.bytes = true
      ∧ v = bytesToWord (s.mem.readBytes a.toNat sz.bytes) := by
  unfold State.memRead at h
  split at h
  · rename_i hc
    exact ⟨(State.checkAccess_ok hc).1, (State.checkAccess_ok hc).2, by simpa [eq_comm] using h⟩
  · cases h

/-- A store that succeeds writes its bytes and nothing else. -/
theorem State.memWrite_ok {s t : State} {a v : Word} {sz : Width} (h : s.memWrite a sz v = .ok t) :
    s.misaligned a sz = false ∧ permits s.params.regions .store a.toNat sz.bytes = true
      ∧ t = { s with mem := s.mem.writeBytes a.toNat (wordBytes sz.bytes v) } := by
  unfold State.memWrite at h
  split at h
  · rename_i hc
    exact ⟨(State.checkAccess_ok hc).1, (State.checkAccess_ok hc).2, by simpa [eq_comm] using h⟩
  · cases h

/-- A call that succeeds was below the depth limit; it pushes the frame and moves `sp` and `x[10]`. -/
theorem State.pushFrame_ok {s t : State} (h : s.pushFrame = .ok t) :
    s.depth < s.params.maxCallDepth ∧
      t = { s with
            frames := s.callFrame :: s.frames
            sp := s.calleeSp
            regs := s.regs.set .r10 s.calleeSp } := by
  unfold State.pushFrame at h
  split at h
  · cases h
  · exact ⟨by omega, by simpa [eq_comm] using h⟩

/-- A call that fails was at the depth limit. -/
theorem State.pushFrame_error {s : State} {f : RunFault} (h : s.pushFrame = .error f) :
    s.params.maxCallDepth ≤ s.depth ∧ f = .callDepthExceeded s.pc := by
  unfold State.pushFrame at h
  split at h
  · rename_i hd; exact ⟨hd, by simpa [eq_comm] using h⟩
  · cases h

/-- A resolved address is that of a slot of the program. -/
theorem State.slotOf_ok {s : State} {a : Word} {t : Nat} (h : s.slotOf a = .ok t) :
    t < s.nSlots ∧ a.toNat = s.params.textVaddr.toNat + 8 * t := by
  unfold State.slotOf at h
  split at h
  · cases h
  · rename_i hn
    have : t = (a.toNat - s.params.textVaddr.toNat) / 8 := by simpa [eq_comm] using h
    omega

/-- An unresolved address is what the fault names. -/
theorem State.slotOf_error {s : State} {a : Word} {f : RunFault} (h : s.slotOf a = .error f) :
    f = .callOutsideTextSegment s.pc a := by
  unfold State.slotOf at h
  split at h
  · simpa [eq_comm] using h
  · cases h

/-- A syscall that succeeds was answered `ok`; it writes `x[0]` to `x[5]`, memory and `pc`. -/
theorem State.hostAnswered_ok {s t : State} {a : HostAnswer} (h : s.hostAnswered a = .ok t) :
    ∃ r0 ws, a = .ok r0 ws ∧
      t = { s with
            regs := s.regs.afterSyscall r0 s.draws
            mem := hostWrites s.params.regions s.mem ws
            draws := s.draws + 5
            pc := s.pc + 1 } := by
  cases a with
  | ok r0 ws => exact ⟨r0, ws, rfl, by simpa [State.hostAnswered, eq_comm] using h⟩
  | error e => cases h

/-- An ALU instruction that may fault: the destination written, or the fault of its arithmetic. -/
theorem State.div64_next {s t : State} {d : Dst} {f : Word → Except RunFault Word}
    (h : s.div64 d f = .next t) :
    (∃ v, f (s.reg d.reg) = .ok v ∧ t = s.writeDst d v)
      ∨ ∃ e, f (s.reg d.reg) = .error e ∧ t = s.faultWith e := by
  unfold State.div64 at h
  cases hf : f (s.reg d.reg) with
  | ok v => left; exact ⟨v, rfl, by simpa [hf, Except.map, State.finish, eq_comm] using h⟩
  | error e => right; exact ⟨e, rfl, by simpa [hf, Except.map, State.finish, raise, eq_comm] using h⟩

theorem State.div32_next {s t : State} {op : Alu32Op} {d : Dst} {f : BitVec 32 → Except RunFault (BitVec 32)}
    (h : s.div32 op d f = .next t) :
    (∃ r, f (low32 (s.reg d.reg)) = .ok r ∧ t = s.writeDst d (s.widen32 op r))
      ∨ ∃ e, f (low32 (s.reg d.reg)) = .error e ∧ t = s.faultWith e := by
  unfold State.div32 at h
  cases hf : f (low32 (s.reg d.reg)) with
  | ok v => left; exact ⟨v, rfl, by simpa [hf, Except.map, State.finish, eq_comm] using h⟩
  | error e => right; exact ⟨e, rfl, by simpa [hf, Except.map, State.finish, raise, eq_comm] using h⟩

/-- A load: the destination written with what memory holds, or an access violation. -/
theorem State.load_next {s t : State} {sz : Width} {d : Dst} {base : Reg} {off : Offset}
    (h : s.load sz d base off = .next t) :
    (∃ v, s.memRead (s.address base off) sz = .ok v ∧ t = s.writeDst d v)
      ∨ ∃ e, s.memRead (s.address base off) sz = .error e ∧ t = s.faultWith e := by
  unfold State.load at h
  cases hf : s.memRead (s.address base off) sz with
  | ok v => left; exact ⟨v, rfl, by simpa [hf, Except.map, State.finish, eq_comm] using h⟩
  | error e => right; exact ⟨e, rfl, by simpa [hf, Except.map, State.finish, raise, eq_comm] using h⟩

/-- A store: the bytes written, or an access violation. -/
theorem State.store_next {s t : State} {sz : Width} {base : Reg} {off : Offset} {v : Word}
    (h : s.store sz base off v = .next t) :
    (∃ u, s.memWrite (s.address base off) sz v = .ok u ∧ t = u.advance)
      ∨ ∃ e, s.memWrite (s.address base off) sz v = .error e ∧ t = s.faultWith e := by
  unfold State.store at h
  cases hf : s.memWrite (s.address base off) sz v with
  | ok u => left; exact ⟨u, rfl, by simpa [hf, Except.map, State.finish, eq_comm] using h⟩
  | error e => right; exact ⟨e, rfl, by simpa [hf, Except.map, State.finish, raise, eq_comm] using h⟩

/-- An internal call: the frame pushed and the jump made, or the depth limit. -/
theorem State.callSlot_next {s t : State} {n : Nat} (h : s.callSlot n = .next t) :
    (∃ u, s.pushFrame = .ok u ∧ t = u.setPc n) ∨ ∃ e, s.pushFrame = .error e ∧ t = s.faultWith e := by
  unfold State.callSlot at h
  cases hf : s.pushFrame with
  | ok u => left; exact ⟨u, rfl, by simpa [hf, Except.map, State.finish, eq_comm] using h⟩
  | error e => right; exact ⟨e, rfl, by simpa [hf, Except.map, State.finish, raise, eq_comm] using h⟩

/-- A syscall: the host's answer taken, its error raised, or an unknown key. -/
theorem State.syscall_next {s t : State} {key : BitVec 32} (h : s.syscall key = .next t) :
    (s.hostAnswered (Config.hostAnswer s.draws key s.hostArgs s.mem) = .ok t) ∨ ∃ e, t = s.faultWith e := by
  unfold State.syscall at h
  split at h
  · rcases State.finish_next h with h | ⟨f, -, h⟩
    · exact .inl h
    · exact .inr ⟨f, h⟩
  · exact .inr ⟨_, raise_next.mp h⟩

/-- `call_imm` is a syscall, an internal call to the slot of its key, or an unsupported instruction. -/
theorem execCallImm_next {sel : BitVec 4} {key : BitVec 32} {s t : State} (h : execCallImm sel key s = .next t) :
    (sel = 0 ∧ s.syscall key = .next t)
      ∨ (∃ n, sel ≠ 0 ∧ lookupFunction key s.params.functions = some n ∧ s.callSlot n = .next t)
      ∨ (sel ≠ 0 ∧ lookupFunction key s.params.functions = none
          ∧ t = s.faultWith (.unsupportedInstruction s.pc)) := by
  unfold execCallImm at h
  split at h
  · rename_i hs; exact .inl ⟨hs, h⟩
  · rename_i hs
    split at h
    · rename_i n hn; exact .inr (.inl ⟨n, hs, hn, h⟩)
    · rename_i hn; exact .inr (.inr ⟨hs, hn, raise_next.mp h⟩)

/-- `call_reg` is an internal call to the slot of its address, or one of its two faults. -/
theorem execCallReg_next {r : Reg} {s t : State} (h : execCallReg r s = .next t) :
    (∃ n, s.slotOf (s.reg r) = .ok n ∧ s.callSlot n = .next t)
      ∨ t = s.faultWith (.callDepthExceeded s.pc)
      ∨ t = s.faultWith (.callOutsideTextSegment s.pc (s.reg r)) := by
  unfold execCallReg at h
  split at h
  · exact .inr (.inl (raise_next.mp h))
  · split at h
    · rename_i n hn; exact .inl ⟨n, hn, h⟩
    · rename_i f hf
      exact .inr (.inr (State.slotOf_error hf ▸ raise_next.mp h))

/-- `exit` returns to the top frame, or ends the run at depth 0. -/
theorem execExit_next {s t : State} (h : execExit s = .next t) :
    (∃ f rest, s.frames = f :: rest ∧ t = s.popFrame f rest)
      ∨ (s.frames = [] ∧ t = { s with status := .exited (s.reg .r0) }) := by
  unfold execExit at h
  split at h
  · rename_i f rest hf; exact .inl ⟨f, rest, hf, by simpa [eq_comm] using h⟩
  · rename_i hf; exact .inr ⟨hf, by simpa [eq_comm] using h⟩

@[simp] theorem wordBytes_length (n : Nat) (v : Word) : (wordBytes n v).length = n := by
  induction n generalizing v with
  | zero => rfl
  | succ n ih => simp [wordBytes, ih]

/-- The byte of index `i` of a word is its bits from `8 * i` up. -/
theorem wordBytes_getElem (n : Nat) (v : Word) (i : Nat) (h : i < (wordBytes n v).length) :
    (wordBytes n v)[i] = v.extractLsb' (8 * i) 8 := by
  induction n generalizing v i with
  | zero => simp at h
  | succ n ih =>
    cases i with
    | zero =>
      simp only [wordBytes, List.getElem_cons_zero]
      apply BitVec.eq_of_getLsbD_eq
      intro j hj
      simp [hj]
    | succ i =>
      simp only [wordBytes, List.getElem_cons_succ]
      have h' : i < (wordBytes n (v >>> 8)).length := by simpa [wordBytes] using h
      rw [ih (v >>> 8) i h']
      apply BitVec.eq_of_getLsbD_eq
      intro j hj
      simp only [BitVec.getLsbD_extractLsb', BitVec.getLsbD_ushiftRight, hj, decide_true, Bool.true_and]
      congr 1
      omega

end Sys2Proof.Machine
end

