-- ==== Sys2Proof/Laws/Exec.lean ====
section
/-! SUPPORT. Everything one instruction can do: the nine ways `exec` can answer a next state. -/

namespace Sys2Proof.Machine

/-- A fault an instruction raises names the instruction and is not the budget's. -/
def RunFault.isOf (s : State) (f : RunFault) : Prop := f.pc = s.pc ∧ f ≠ .exceededMaxInstructions s.pc

/-- The effects of the instructions, by what they write. -/
inductive Effect (i : Instr) (s : State) : State → Prop
  /-- A fault: the status alone. -/
  | fault (f : RunFault) (h : f.isOf s) : Effect i s (s.faultWith f)
  /-- A destination register and `pc`. -/
  | writes (d : Dst) (v : Word) (n : Int) : Effect i s ((s.setReg d.reg v).setPc n)
  /-- `pc` alone. -/
  | jumps (n : Int) : Effect i s (s.setPc n)
  /-- The bytes of a permitted store. -/
  | stores (base : Reg) (off : Offset) (sz : Width) (v : Word)
      (hi : ∃ r imm, i ∈ [Instr.stbReg base off r, .sthReg base off r, .stwReg base off r, .stdwReg base off r,
        .stbImm base off imm, .sthImm base off imm, .stwImm base off imm, .stdwImm base off imm])
      (hp : permits s.params.regions .store (s.address base off).toNat sz.bytes = true) :
      Effect i s
        { s with mem := s.mem.writeBytes (s.address base off).toNat (wordBytes sz.bytes v), pc := s.pc + 1 }
  /-- The entry of an internal call. -/
  | calls (n : Nat) (hi : IsInternalCall i) (hd : s.depth < s.params.maxCallDepth) :
      Effect i s
        { s with
          frames := s.callFrame :: s.frames
          sp := s.calleeSp
          regs := s.regs.set .r10 s.calleeSp
          pc := n }
  /-- A host function's answer. -/
  | syscall (key : BitVec 32) (r0 : Word) (ws : List (Word × Byte)) (hi : i = .callImm 0 key)
      (ha : Config.hostAnswer s.draws key s.hostArgs s.mem = .ok r0 ws) :
      Effect i s
        { s with
          regs := s.regs.afterSyscall r0 s.draws
          mem := hostWrites s.params.regions s.mem ws
          draws := s.draws + 5
          pc := s.pc + 1 }
  /-- A return. -/
  | returns (f : Frame) (rest : List Frame) (hi : i = .exit) (hf : s.frames = f :: rest) :
      Effect i s (s.popFrame f rest)
  /-- The end of the run. -/
  | ends (hi : i = .exit) (hf : s.frames = []) : Effect i s { s with status := .exited (s.reg .r0) }
  /-- The hidden stack pointer. -/
  | addStk (imm : Imm) (hi : i = .addStk imm) : Effect i s { s with sp := s.sp + sextImm imm, pc := s.pc + 1 }

theorem alu64_effect {i : Instr} {s : State} (d : Dst) (f : Word → Word) :
    ∃ t, s.alu64 d f = .next t ∧ Effect i s t := ⟨_, rfl, .writes d _ _⟩

theorem alu32_effect {i : Instr} {s : State} (op : Alu32Op) (d : Dst) (f : BitVec 32 → BitVec 32) :
    ∃ t, s.alu32 op d f = .next t ∧ Effect i s t := ⟨_, rfl, .writes d _ _⟩

/-! A fault of the arithmetic of a division names the instruction. -/

theorem quotU_error {n : Nat} {s : State} {a b : BitVec n} {e : RunFault} (h : quotU s.pc a b = .error e) :
    e.isOf s := by
  unfold quotU at h
  split at h
  · obtain rfl := Except.error.inj h; exact ⟨rfl, by simp⟩
  · cases h

theorem remU_error {n : Nat} {s : State} {a b : BitVec n} {e : RunFault} (h : remU s.pc a b = .error e) :
    e.isOf s := by
  unfold remU at h
  split at h
  · obtain rfl := Except.error.inj h; exact ⟨rfl, by simp⟩
  · cases h

theorem quotS_error {n : Nat} {s : State} {a b : BitVec n} {e : RunFault} (h : quotS s.pc a b = .error e) :
    e.isOf s := by
  unfold quotS at h
  split at h
  · obtain rfl := Except.error.inj h; exact ⟨rfl, by simp⟩
  · split at h
    · obtain rfl := Except.error.inj h; exact ⟨rfl, by simp⟩
    · cases h

theorem remS_error {n : Nat} {s : State} {a b : BitVec n} {e : RunFault} (h : remS s.pc a b = .error e) :
    e.isOf s := by
  unfold remS at h
  split at h
  · obtain rfl := Except.error.inj h; exact ⟨rfl, by simp⟩
  · split at h
    · obtain rfl := Except.error.inj h; exact ⟨rfl, by simp⟩
    · cases h

theorem div64_effect {i : Instr} {s : State} (d : Dst) (f : Word → Except RunFault Word)
    (hf : ∀ e, f (s.reg d.reg) = .error e → e.isOf s) : ∃ t, s.div64 d f = .next t ∧ Effect i s t := by
  unfold State.div64
  cases h : f (s.reg d.reg) with
  | ok v => exact ⟨_, rfl, .writes d _ _⟩
  | error e => exact ⟨_, rfl, .fault e (hf e h)⟩

theorem div32_effect {i : Instr} {s : State} (op : Alu32Op) (d : Dst)
    (f : BitVec 32 → Except RunFault (BitVec 32))
    (hf : ∀ e, f (low32 (s.reg d.reg)) = .error e → e.isOf s) :
    ∃ t, s.div32 op d f = .next t ∧ Effect i s t := by
  unfold State.div32
  cases h : f (low32 (s.reg d.reg)) with
  | ok v => exact ⟨_, rfl, .writes d _ _⟩
  | error e => exact ⟨_, rfl, .fault e (hf e h)⟩

theorem branch_effect {i : Instr} {s : State} (c : Bool) (off : Offset) :
    ∃ t, s.branch c off = .next t ∧ Effect i s t := ⟨_, rfl, .jumps _⟩

theorem load_effect {i : Instr} {s : State} (sz : Width) (d : Dst) (base : Reg) (off : Offset) :
    ∃ t, s.load sz d base off = .next t ∧ Effect i s t := by
  unfold State.load State.memRead
  cases h : s.checkAccess .load (s.address base off) sz with
  | ok v => exact ⟨_, rfl, .writes d _ _⟩
  | error e =>
    obtain rfl := State.checkAccess_error h
    exact ⟨_, rfl, .fault _ ⟨rfl, by simp⟩⟩

theorem store_effect {i : Instr} {s : State} (sz : Width) (base : Reg) (off : Offset) (v : Word)
    (hi : ∃ r imm, i ∈ [Instr.stbReg base off r, .sthReg base off r, .stwReg base off r, .stdwReg base off r,
      .stbImm base off imm, .sthImm base off imm, .stwImm base off imm, .stdwImm base off imm]) :
    ∃ t, s.store sz base off v = .next t ∧ Effect i s t := by
  unfold State.store State.memWrite
  cases h : s.checkAccess .store (s.address base off) sz with
  | ok u => exact ⟨_, rfl, .stores base off sz v hi (State.checkAccess_ok h).2⟩
  | error e =>
    obtain rfl := State.checkAccess_error h
    exact ⟨_, rfl, .fault _ ⟨rfl, by simp⟩⟩

theorem callSlot_effect {i : Instr} {s : State} (hi : IsInternalCall i) (n : Nat) :
    ∃ t, s.callSlot n = .next t ∧ Effect i s t := by
  unfold State.callSlot
  cases h : s.pushFrame with
  | ok u =>
    obtain ⟨hd, rfl⟩ := State.pushFrame_ok h
    exact ⟨_, rfl, .calls n hi hd⟩
  | error e =>
    obtain ⟨-, rfl⟩ := State.pushFrame_error h
    exact ⟨_, rfl, .fault _ ⟨rfl, by simp⟩⟩

theorem callImm_effect (sel : BitVec 4) (key : BitVec 32) (s : State) :
    ∃ t, execCallImm sel key s = .next t ∧ Effect (.callImm sel key) s t := by
  unfold execCallImm
  split
  · rename_i hs
    unfold State.syscall
    split
    · cases h : Config.hostAnswer s.draws key s.hostArgs s.mem with
      | ok r0 ws => exact ⟨_, rfl, .syscall key r0 ws (by rw [hs]) h⟩
      | error e => exact ⟨_, rfl, .fault _ ⟨rfl, by simp⟩⟩
    · exact ⟨_, rfl, .fault _ ⟨rfl, by simp⟩⟩
  · rename_i hs
    split
    · exact callSlot_effect (.inl ⟨sel, key, hs, rfl⟩) _
    · exact ⟨_, rfl, .fault _ ⟨rfl, by simp⟩⟩

theorem callReg_effect (r : Reg) (s : State) :
    ∃ t, execCallReg r s = .next t ∧ Effect (.callReg r) s t := by
  unfold execCallReg
  split
  · exact ⟨_, rfl, .fault _ ⟨rfl, by simp⟩⟩
  · split
    · exact callSlot_effect (.inr ⟨r, rfl⟩) _
    · rename_i f hf
      obtain rfl := State.slotOf_error hf
      exact ⟨_, rfl, .fault _ ⟨rfl, by simp⟩⟩

theorem exit_effect (s : State) : ∃ t, execExit s = .next t ∧ Effect .exit s t := by
  unfold execExit
  split
  · rename_i f rest hf; exact ⟨_, rfl, .returns f rest rfl hf⟩
  · rename_i hf; exact ⟨_, rfl, .ends rfl hf⟩

/-- What an instruction that answers a next state has done. -/
theorem exec_next {i : Instr} {s t : State} (h : exec i s = .next t) : Effect i s t := by
  have key : ∃ u, exec i s = .next u ∧ Effect i s u := by
    cases i
    case callImm sel key => exact callImm_effect sel key s
    case callReg r => exact callReg_effect r s
    case exit => exact exit_effect s
    case addStk imm => exact ⟨_, rfl, .addStk imm rfl⟩
    case lddw d v => exact ⟨_, rfl, .writes d v _⟩
    case stbImm base off imm => exact store_effect .b base off _ ⟨.r0, imm, by simp⟩
    case sthImm base off imm => exact store_effect .h base off _ ⟨.r0, imm, by simp⟩
    case stwImm base off imm => exact store_effect .w base off _ ⟨.r0, imm, by simp⟩
    case stdwImm base off imm => exact store_effect .dw base off _ ⟨.r0, imm, by simp⟩
    case stbReg base off r => exact store_effect .b base off _ ⟨r, 0, by simp⟩
    case sthReg base off r => exact store_effect .h base off _ ⟨r, 0, by simp⟩
    case stwReg base off r => exact store_effect .w base off _ ⟨r, 0, by simp⟩
    case stdwReg base off r => exact store_effect .dw base off _ ⟨r, 0, by simp⟩
    all_goals simp only [exec,
      execAdd32Imm, execAdd32Reg, execAdd64Imm, execAdd64Reg, execSub32Imm, execSub32Reg, execSub64Imm,
      execSub64Reg, execMul32Imm, execMul32Reg, execMul64Imm, execMul64Reg, execDiv32Imm, execDiv32Reg,
      execDiv64Imm, execDiv64Reg, execMod32Imm, execMod32Reg, execMod64Imm, execMod64Reg, execNeg32,
      execNeg64, execOr32Imm, execOr32Reg, execOr64Imm, execOr64Reg, execAnd32Imm, execAnd32Reg,
      execAnd64Imm, execAnd64Reg, execXor32Imm, execXor32Reg, execXor64Imm, execXor64Reg, execLsh32Imm,
      execLsh32Reg, execLsh64Imm, execLsh64Reg, execRsh32Imm, execRsh32Reg, execRsh64Imm, execRsh64Reg,
      execArsh32Imm, execArsh32Reg, execArsh64Imm, execArsh64Reg, execMov32Imm, execMov32Reg, execMov64Imm,
      execMov64Reg, execHor64Imm, execUhmul64Imm, execUhmul64Reg, execShmul64Imm, execShmul64Reg,
      execSdiv32Imm, execSdiv32Reg, execSdiv64Imm, execSdiv64Reg, execSrem32Imm, execSrem32Reg,
      execSrem64Imm, execSrem64Reg, execJa, execJeqImm, execJeqReg, execJneImm, execJneReg, execJgtImm,
      execJgtReg, execJgeImm, execJgeReg, execJltImm, execJltReg, execJleImm, execJleReg, execJsgtImm,
      execJsgtReg, execJsgeImm, execJsgeReg, execJsltImm, execJsltReg, execJsleImm, execJsleReg,
      execJsetImm, execJsetReg, execLdxb, execLdxh, execLdxw, execLdxdw, execLe16, execLe32, execLe64,
      execBe16, execBe32, execBe64,
      State.jumpImm, State.jumpReg]
    all_goals first
      | exact load_effect _ _ _ _
      | exact branch_effect _ _
      | exact alu64_effect _ _
      | exact alu32_effect _ _ _
      | exact div64_effect _ _ fun _ he => quotU_error he
      | exact div64_effect _ _ fun _ he => remU_error he
      | exact div64_effect _ _ fun _ he => quotS_error he
      | exact div64_effect _ _ fun _ he => remS_error he
      | exact div32_effect _ _ _ fun _ he => quotU_error he
      | exact div32_effect _ _ _ fun _ he => remU_error he
      | exact div32_effect _ _ _ fun _ he => quotS_error he
      | exact div32_effect _ _ _ fun _ he => remS_error he
  obtain ⟨u, hu, he⟩ := key
  obtain rfl : u = t := by rw [hu] at h; exact Host.Outcome.next.inj h
  exact he

end Sys2Proof.Machine
end

