-- ==== Sys2Proof/Laws/Loader.lean ====
section
/-! SUPPORT. What a launch and the checks before it can answer. -/

namespace Sys2Proof.Machine

/-- No `FUNCTIONS` entry is bad exactly when each gives a slot of the program that is no second slot. -/
theorem badFunction_eq_none {n : Nat} {seconds : List Nat} {l : List (BitVec 32 × Nat)} :
    badFunction n seconds l = none ↔ ∀ e ∈ l, e.2 < n ∧ e.2 ∉ seconds := by
  induction l with
  | nil => simp [badFunction]
  | cons e l ih =>
    simp only [badFunction, List.forall_mem_cons, List.contains_iff_mem]
    split
    · rename_i h
      exact iff_of_false (by simp) fun hn => h.elim (fun h1 => by omega) hn.1.2
    · rename_i h
      rw [not_or, Nat.not_le] at h
      rw [ih]
      exact (and_iff_right h).symm

/-- A launch gives the launch state when `VERIFY` is off or the checks pass, and otherwise refuses with what
they report. -/
theorem launch_cases (g : LoadImage) :
    ((g.verify = false ∨ g.check = none) ∧ launch g = .next g.launchState)
      ∨ ∃ slot why, g.verify = true ∧ g.check = some (slot, why) ∧ launch g = .refused (.verifierError slot why) := by
  unfold launch
  cases hv : g.verify with
  | false => exact .inl ⟨.inl rfl, rfl⟩
  | true =>
    cases hc : g.check with
    | none => exact .inl ⟨.inr rfl, rfl⟩
    | some e => exact .inr ⟨e.1, e.2, rfl, rfl, rfl⟩

end Sys2Proof.Machine
end

