-- ==== Sys2Proof/Laws/PerInstr.lean ====
section
/-! SUPPORT. Laws for all instructions, one lemma for each constructor (LAWS.json "per_instruction"). -/

namespace Sys2Proof.Laws.SlotCount

/-- The encoder writes as many slots as the instruction takes (R60). -/
def Statement (i : Instr) : Prop := ∀ m : Isa, (encode m i).length = i.slots

theorem add32Imm (d : Dst) (imm : Imm) : Statement (.add32Imm d imm) := fun _ => rfl
theorem add32Reg (d : Dst) (src : Reg) : Statement (.add32Reg d src) := fun _ => rfl
theorem add64Imm (d : Dst) (imm : Imm) : Statement (.add64Imm d imm) := fun _ => rfl
theorem add64Reg (d : Dst) (src : Reg) : Statement (.add64Reg d src) := fun _ => rfl
theorem sub32Imm (d : Dst) (imm : Imm) : Statement (.sub32Imm d imm) := fun _ => rfl
theorem sub32Reg (d : Dst) (src : Reg) : Statement (.sub32Reg d src) := fun _ => rfl
theorem sub64Imm (d : Dst) (imm : Imm) : Statement (.sub64Imm d imm) := fun _ => rfl
theorem sub64Reg (d : Dst) (src : Reg) : Statement (.sub64Reg d src) := fun _ => rfl
theorem mul32Imm (d : Dst) (imm : Imm) : Statement (.mul32Imm d imm) := fun _ => rfl
theorem mul32Reg (d : Dst) (src : Reg) : Statement (.mul32Reg d src) := fun _ => rfl
theorem mul64Imm (d : Dst) (imm : Imm) : Statement (.mul64Imm d imm) := fun _ => rfl
theorem mul64Reg (d : Dst) (src : Reg) : Statement (.mul64Reg d src) := fun _ => rfl
theorem div32Imm (d : Dst) (imm : Imm) : Statement (.div32Imm d imm) := fun _ => rfl
theorem div32Reg (d : Dst) (src : Reg) : Statement (.div32Reg d src) := fun _ => rfl
theorem div64Imm (d : Dst) (imm : Imm) : Statement (.div64Imm d imm) := fun _ => rfl
theorem div64Reg (d : Dst) (src : Reg) : Statement (.div64Reg d src) := fun _ => rfl
theorem mod32Imm (d : Dst) (imm : Imm) : Statement (.mod32Imm d imm) := fun _ => rfl
theorem mod32Reg (d : Dst) (src : Reg) : Statement (.mod32Reg d src) := fun _ => rfl
theorem mod64Imm (d : Dst) (imm : Imm) : Statement (.mod64Imm d imm) := fun _ => rfl
theorem mod64Reg (d : Dst) (src : Reg) : Statement (.mod64Reg d src) := fun _ => rfl
theorem neg32 (d : Dst) : Statement (.neg32 d) := fun _ => rfl
theorem neg64 (d : Dst) : Statement (.neg64 d) := fun _ => rfl
theorem or32Imm (d : Dst) (imm : Imm) : Statement (.or32Imm d imm) := fun _ => rfl
theorem or32Reg (d : Dst) (src : Reg) : Statement (.or32Reg d src) := fun _ => rfl
theorem or64Imm (d : Dst) (imm : Imm) : Statement (.or64Imm d imm) := fun _ => rfl
theorem or64Reg (d : Dst) (src : Reg) : Statement (.or64Reg d src) := fun _ => rfl
theorem and32Imm (d : Dst) (imm : Imm) : Statement (.and32Imm d imm) := fun _ => rfl
theorem and32Reg (d : Dst) (src : Reg) : Statement (.and32Reg d src) := fun _ => rfl
theorem and64Imm (d : Dst) (imm : Imm) : Statement (.and64Imm d imm) := fun _ => rfl
theorem and64Reg (d : Dst) (src : Reg) : Statement (.and64Reg d src) := fun _ => rfl
theorem xor32Imm (d : Dst) (imm : Imm) : Statement (.xor32Imm d imm) := fun _ => rfl
theorem xor32Reg (d : Dst) (src : Reg) : Statement (.xor32Reg d src) := fun _ => rfl
theorem xor64Imm (d : Dst) (imm : Imm) : Statement (.xor64Imm d imm) := fun _ => rfl
theorem xor64Reg (d : Dst) (src : Reg) : Statement (.xor64Reg d src) := fun _ => rfl
theorem lsh32Imm (d : Dst) (imm : Imm) : Statement (.lsh32Imm d imm) := fun _ => rfl
theorem lsh32Reg (d : Dst) (src : Reg) : Statement (.lsh32Reg d src) := fun _ => rfl
theorem lsh64Imm (d : Dst) (imm : Imm) : Statement (.lsh64Imm d imm) := fun _ => rfl
theorem lsh64Reg (d : Dst) (src : Reg) : Statement (.lsh64Reg d src) := fun _ => rfl
theorem rsh32Imm (d : Dst) (imm : Imm) : Statement (.rsh32Imm d imm) := fun _ => rfl
theorem rsh32Reg (d : Dst) (src : Reg) : Statement (.rsh32Reg d src) := fun _ => rfl
theorem rsh64Imm (d : Dst) (imm : Imm) : Statement (.rsh64Imm d imm) := fun _ => rfl
theorem rsh64Reg (d : Dst) (src : Reg) : Statement (.rsh64Reg d src) := fun _ => rfl
theorem arsh32Imm (d : Dst) (imm : Imm) : Statement (.arsh32Imm d imm) := fun _ => rfl
theorem arsh32Reg (d : Dst) (src : Reg) : Statement (.arsh32Reg d src) := fun _ => rfl
theorem arsh64Imm (d : Dst) (imm : Imm) : Statement (.arsh64Imm d imm) := fun _ => rfl
theorem arsh64Reg (d : Dst) (src : Reg) : Statement (.arsh64Reg d src) := fun _ => rfl
theorem mov32Imm (d : Dst) (imm : Imm) : Statement (.mov32Imm d imm) := fun _ => rfl
theorem mov32Reg (d : Dst) (src : Reg) : Statement (.mov32Reg d src) := fun _ => rfl
theorem mov64Imm (d : Dst) (imm : Imm) : Statement (.mov64Imm d imm) := fun _ => rfl
theorem mov64Reg (d : Dst) (src : Reg) : Statement (.mov64Reg d src) := fun _ => rfl
theorem hor64Imm (d : Dst) (imm : Imm) : Statement (.hor64Imm d imm) := fun _ => rfl
theorem uhmul64Imm (d : Dst) (imm : Imm) : Statement (.uhmul64Imm d imm) := fun _ => rfl
theorem uhmul64Reg (d : Dst) (src : Reg) : Statement (.uhmul64Reg d src) := fun _ => rfl
theorem shmul64Imm (d : Dst) (imm : Imm) : Statement (.shmul64Imm d imm) := fun _ => rfl
theorem shmul64Reg (d : Dst) (src : Reg) : Statement (.shmul64Reg d src) := fun _ => rfl
theorem sdiv32Imm (d : Dst) (imm : Imm) : Statement (.sdiv32Imm d imm) := fun _ => rfl
theorem sdiv32Reg (d : Dst) (src : Reg) : Statement (.sdiv32Reg d src) := fun _ => rfl
theorem sdiv64Imm (d : Dst) (imm : Imm) : Statement (.sdiv64Imm d imm) := fun _ => rfl
theorem sdiv64Reg (d : Dst) (src : Reg) : Statement (.sdiv64Reg d src) := fun _ => rfl
theorem srem32Imm (d : Dst) (imm : Imm) : Statement (.srem32Imm d imm) := fun _ => rfl
theorem srem32Reg (d : Dst) (src : Reg) : Statement (.srem32Reg d src) := fun _ => rfl
theorem srem64Imm (d : Dst) (imm : Imm) : Statement (.srem64Imm d imm) := fun _ => rfl
theorem srem64Reg (d : Dst) (src : Reg) : Statement (.srem64Reg d src) := fun _ => rfl
theorem ja (off : Offset) : Statement (.ja off) := fun _ => rfl
theorem jeqImm (l : Reg) (imm : Imm) (off : Offset) : Statement (.jeqImm l imm off) := fun _ => rfl
theorem jeqReg (l : Reg) (r : Reg) (off : Offset) : Statement (.jeqReg l r off) := fun _ => rfl
theorem jneImm (l : Reg) (imm : Imm) (off : Offset) : Statement (.jneImm l imm off) := fun _ => rfl
theorem jneReg (l : Reg) (r : Reg) (off : Offset) : Statement (.jneReg l r off) := fun _ => rfl
theorem jgtImm (l : Reg) (imm : Imm) (off : Offset) : Statement (.jgtImm l imm off) := fun _ => rfl
theorem jgtReg (l : Reg) (r : Reg) (off : Offset) : Statement (.jgtReg l r off) := fun _ => rfl
theorem jgeImm (l : Reg) (imm : Imm) (off : Offset) : Statement (.jgeImm l imm off) := fun _ => rfl
theorem jgeReg (l : Reg) (r : Reg) (off : Offset) : Statement (.jgeReg l r off) := fun _ => rfl
theorem jltImm (l : Reg) (imm : Imm) (off : Offset) : Statement (.jltImm l imm off) := fun _ => rfl
theorem jltReg (l : Reg) (r : Reg) (off : Offset) : Statement (.jltReg l r off) := fun _ => rfl
theorem jleImm (l : Reg) (imm : Imm) (off : Offset) : Statement (.jleImm l imm off) := fun _ => rfl
theorem jleReg (l : Reg) (r : Reg) (off : Offset) : Statement (.jleReg l r off) := fun _ => rfl
theorem jsgtImm (l : Reg) (imm : Imm) (off : Offset) : Statement (.jsgtImm l imm off) := fun _ => rfl
theorem jsgtReg (l : Reg) (r : Reg) (off : Offset) : Statement (.jsgtReg l r off) := fun _ => rfl
theorem jsgeImm (l : Reg) (imm : Imm) (off : Offset) : Statement (.jsgeImm l imm off) := fun _ => rfl
theorem jsgeReg (l : Reg) (r : Reg) (off : Offset) : Statement (.jsgeReg l r off) := fun _ => rfl
theorem jsltImm (l : Reg) (imm : Imm) (off : Offset) : Statement (.jsltImm l imm off) := fun _ => rfl
theorem jsltReg (l : Reg) (r : Reg) (off : Offset) : Statement (.jsltReg l r off) := fun _ => rfl
theorem jsleImm (l : Reg) (imm : Imm) (off : Offset) : Statement (.jsleImm l imm off) := fun _ => rfl
theorem jsleReg (l : Reg) (r : Reg) (off : Offset) : Statement (.jsleReg l r off) := fun _ => rfl
theorem jsetImm (l : Reg) (imm : Imm) (off : Offset) : Statement (.jsetImm l imm off) := fun _ => rfl
theorem jsetReg (l : Reg) (r : Reg) (off : Offset) : Statement (.jsetReg l r off) := fun _ => rfl
theorem ldxb (d : Dst) (base : Reg) (off : Offset) : Statement (.ldxb d base off) := fun _ => rfl
theorem ldxh (d : Dst) (base : Reg) (off : Offset) : Statement (.ldxh d base off) := fun _ => rfl
theorem ldxw (d : Dst) (base : Reg) (off : Offset) : Statement (.ldxw d base off) := fun _ => rfl
theorem ldxdw (d : Dst) (base : Reg) (off : Offset) : Statement (.ldxdw d base off) := fun _ => rfl
theorem stbImm (base : Reg) (off : Offset) (imm : Imm) : Statement (.stbImm base off imm) := fun _ => rfl
theorem sthImm (base : Reg) (off : Offset) (imm : Imm) : Statement (.sthImm base off imm) := fun _ => rfl
theorem stwImm (base : Reg) (off : Offset) (imm : Imm) : Statement (.stwImm base off imm) := fun _ => rfl
theorem stdwImm (base : Reg) (off : Offset) (imm : Imm) : Statement (.stdwImm base off imm) := fun _ => rfl
theorem stbReg (base : Reg) (off : Offset) (src : Reg) : Statement (.stbReg base off src) := fun _ => rfl
theorem sthReg (base : Reg) (off : Offset) (src : Reg) : Statement (.sthReg base off src) := fun _ => rfl
theorem stwReg (base : Reg) (off : Offset) (src : Reg) : Statement (.stwReg base off src) := fun _ => rfl
theorem stdwReg (base : Reg) (off : Offset) (src : Reg) : Statement (.stdwReg base off src) := fun _ => rfl
theorem lddw (d : Dst) (value : Word) : Statement (.lddw d value) := fun _ => rfl
theorem le16 (d : Dst) : Statement (.le16 d) := fun _ => rfl
theorem le32 (d : Dst) : Statement (.le32 d) := fun _ => rfl
theorem le64 (d : Dst) : Statement (.le64 d) := fun _ => rfl
theorem be16 (d : Dst) : Statement (.be16 d) := fun _ => rfl
theorem be32 (d : Dst) : Statement (.be32 d) := fun _ => rfl
theorem be64 (d : Dst) : Statement (.be64 d) := fun _ => rfl
theorem callImm (sel : BitVec 4) (key : BitVec 32) : Statement (.callImm sel key) := fun _ => rfl
theorem callReg (r : Reg) : Statement (.callReg r) := fun m => by
  cases h : m.version <;> simp [encode, h, Instr.slots]
theorem exit : Statement (.exit) := fun _ => rfl
theorem addStk (imm : Imm) : Statement (.addStk imm) := fun _ => rfl

end Sys2Proof.Laws.SlotCount
end

