-- ==== Sys2Proof/Laws/Step.lean ====
section
/-! SUPPORT. Everything one step can do (10_state R27). -/

namespace Sys2Proof.Machine

/-- A fetch that succeeds is of a slot of the program. -/
theorem State.fetch_some {s : State} {f : Slot × Option Slot} (h : s.fetch = some f) :
    ∃ n : Nat, s.pc = n ∧ s.params.program[n]? = some f.1 ∧ s.params.program[n + 1]? = f.2 := by
  unfold State.fetch at h
  split at h
  · rename_i n hn
    simp only [Option.map_eq_some_iff] at h
    obtain ⟨w, hw, rfl⟩ := h
    exact ⟨n, hn, hw, rfl⟩
  · cases h

/-- A step that answers a next state ran from a running state, and did one of four things. -/
theorem step_next {s t : State} (h : step s = .next t) :
    s.status = .running ∧
      ((s.overBudget = true ∧ t = s.faultWith (.exceededMaxInstructions s.pc))
        ∨ (s.overBudget = false ∧ s.tick.fetch = none ∧ t = s.tick.faultWith (.executionOverrun s.pc))
        ∨ (s.overBudget = false ∧ ∃ f i, s.tick.fetch = some f ∧ decode s.params.isa f.1 f.2 = .ok i
            ∧ exec i s.tick = .next t)
        ∨ (s.overBudget = false ∧ ∃ f e, s.tick.fetch = some f ∧ decode s.params.isa f.1 f.2 = .error e
            ∧ t = s.tick.faultWith (.unsupportedInstruction s.pc))) := by
  unfold step at h
  split at h
  · rename_i hr
    refine ⟨hr, ?_⟩
    split at h
    · rename_i hb; exact .inl ⟨hb, raise_next.mp h⟩
    · rename_i hb
      have hb' : s.overBudget = false := by simpa using hb
      split at h
      · rename_i f hf
        unfold State.execSlot at h
        split at h
        · rename_i i hi; exact .inr (.inr (.inl ⟨hb', f, i, hf, hi, h⟩))
        · rename_i e he; exact .inr (.inr (.inr ⟨hb', f, e, hf, he, raise_next.mp h⟩))
      · rename_i hf; exact .inr (.inl ⟨hb', hf, raise_next.mp h⟩)
  · cases h
  · cases h

end Sys2Proof.Machine
end

