-- ==== Sys2Proof/Tests/Slice0.lean ====
section
/-! SUPPORT. The model's own tests. Expected values are those of spec/95_test_vectors and of the worked
examples of the rules; slots are written out from the format of 30_encoding R61. A theorem `witness_<name>`
gives a state and operands that meet the hypotheses of the obligation of that name. -/

namespace Sys2Proof.Tests
open Sys2Proof Sys2Proof.Machine

def v1 : Isa := ⟨.v1, false, 0, false⟩
def v2 : Isa := ⟨.v2, false, 0, false⟩
def dyn : Isa := ⟨.v2, true, 0, false⟩

/-- Reset with this text placed from slot 10 and `pc` there; misaligned accesses allowed. -/
def at10 (m : Isa) (text : List Slot) : State :=
  { State.reset with
    pc := 10
    params :=
      { State.reset.params with isa := m, misaligned := .allow, program := List.replicate 10 0 ++ text } }

/-- One step of the word `w` at slot 10 with `r1` and `r2` set. -/
def run (m : Isa) (w a b : Word) : Result := step (((at10 m [w]).setReg .r1 a).setReg .r2 b)

/-- `r1` after a step that moved `pc` to the next slot. -/
def r1After (m : Isa) (w a b : Word) : Option Word :=
  match run m w a b with
  | .next t => if t.pc = 11 ∧ t.status = .running then some (t.reg .r1) else none
  | _ => none

/-- `pc` after a step that left `r1` and `r2` alone. -/
def pcAfter (m : Isa) (w a b : Word) : Option Int :=
  match run m w a b with
  | .next t => if t.reg .r1 = a ∧ t.reg .r2 = b ∧ t.status = .running then some t.pc else none
  | _ => none

/-- The step faults so and leaves `r1` and `pc` alone. -/
def faultsAs (m : Isa) (w a b : Word) (f : RunFault) : Bool :=
  match run m w a b with
  | .next t => t.status == .faulted f && t.reg .r1 == a && t.pc == 10
  | _ => false

/-- The state an outcome holds has this property. -/
def after (o : Result) (p : State → Bool) : Bool :=
  match o with
  | .next t => p t
  | _ => false

/-! ### Well-formed instructions -/

theorem test_wf_division_by_zero :
    (Instr.div64Imm .r1 0).wf = false ∧ (Instr.srem32Imm .r1 0).wf = false ∧ (Instr.div64Imm .r1 1).wf = true := by
  decide

theorem test_wf_shift_range :
    (Instr.lsh32Imm .r1 32).wf = false ∧ (Instr.lsh32Imm .r1 31).wf = true ∧ (Instr.arsh64Imm .r1 64).wf = false
      ∧ (Instr.rsh64Imm .r1 63).wf = true ∧ (Instr.lsh64Imm .r1 0xFFFFFFFF).wf = false := by decide

theorem test_available :
    (Instr.neg64 .r1).availableIn v2 = false ∧ (Instr.hor64Imm .r1 1).availableIn v1 = false
      ∧ (Instr.lddw .r1 1).availableIn v1 = false ∧ (Instr.addStk 8).availableIn v2 = false
      ∧ (Instr.add64Imm .r0 8).availableIn dyn = false ∧ (Instr.callReg .r10).availableIn v1 = false := by decide

/-! ### Encodings refused (95_test_vectors L2.1 to L2.7) -/

theorem test_refused_opcodes :
    decode v2 0x0000000000000000 none = .error .unassignedOpcode
      ∧ decode v2 0x8C00000000000000 none = .error .unassignedOpcode
      ∧ decode v2 0xD700000000000000 none = .error .unassignedOpcode
      ∧ decode v2 0x4600000000000000 none = .error .unassignedOpcode
      ∧ decode v2 0xDB00000000000000 none = .error .unassignedOpcode := by decide

theorem test_refused_versions :
    decode v2 0x8710000000000000 none = .error .notInVersion
      ∧ decode v1 0xF710000000000001 none = .error .notInVersion
      ∧ decode v2 0xD410000000000020 none = .error .notInVersion
      ∧ decode v1 0x1810000055667788 (some 0) = .error .notInVersion
      ∧ decode v1 0x3E21000000000000 none = .error .notInVersion := by decide

theorem test_refused_registers :
    decode v2 0xB7B0000000000000 none = .error .badRegister
      ∧ decode v2 0xB7A0000000000000 none = .error .badRegister
      ∧ decode v2 0x61A1000000000000 none = .error .badRegister
      ∧ decode v2 0x0F1B000000000000 none = .error .badRegister
      ∧ decode v2 0x1DAA000000000000 none = .ok (.jeqReg .r10 .r10 0) := by decide

theorem test_refused_immediates :
    decode v2 0x6710000000000040 none = .error .badImmediate
      ∧ decode v2 0x6410000000000020 none = .error .badImmediate
      ∧ decode v2 0xDC10000000000008 none = .error .badImmediate
      ∧ decode v2 0xDC10000000000000 none = .error .badImmediate
      ∧ decode v1 0x8D0000000000000A none = .error .badImmediate := by decide

theorem test_refused_lddw :
    decode v2 0x1811000055667788 (some 0) = .error .badLddw
      ∧ decode v2 0x1810000055667788 (some 0x1800000000000000) = .error .badLddw
      ∧ decode v2 0x1810000055667788 none = .error .badLddw := by decide

theorem test_unused_field_ignored : decode v2 0xB70F000000000005 none = .ok (.mov64Imm .r0 5) := by decide

theorem test_add_stk_shares_its_byte :
    decode dyn 0x07000000FFFFFFC0 none = .ok (.addStk 0xFFFFFFC0)
      ∧ decode v2 0x07000000FFFFFFC0 none = .ok (.add64Imm .r0 0xFFFFFFC0)
      ∧ decode dyn 0x07100000FFFFFFC0 none = .ok (.add64Imm .r1 0xFFFFFFC0) := by decide

theorem test_slot_bytes :
    slotBytes 0x07100000FFFFFFFF = [0x07, 0x01, 0x00, 0x00, 0xFF, 0xFF, 0xFF, 0xFF]
      ∧ slotBytes 0x611AFFF800000000 = [0x61, 0xA1, 0xF8, 0xFF, 0x00, 0x00, 0x00, 0x00]
      ∧ slotOfBytes 0x7B 0x1A 0xF8 0xFF 0 0 0 0 = 0x7BA1FFF800000000 := by decide

theorem test_table_words :
    decodeTableWord 64 0x0F12000000000000 = some (.add64Reg .r1 .r2)
      ∧ decodeTableWord 64 0xD410000000000010 = some (.le16 .r1)
      ∧ decodeTableWord 64 0x07000000FFFFFFC0 = some (.addStk 0xFFFFFFC0)
      ∧ decodeTableWord 128 (0x1810000055667788 + 0x11223344 * 2 ^ 64) = some (.lddw .r1 0x1122334455667788)
      ∧ decodeTableWord 64 0x1810000055667788 = some (.lddw .r1 0x55667788)
      ∧ decodeTableWord 64 0x8C00000000000000 = none := by decide

theorem test_fetch_word_runs :
    after (step (State.reset.withFetchWord 64 0xB71000000000000A)) (fun t => t.reg .r1 == 10 && t.pc == 1) = true
      ∧ after (step (State.reset.withFetchWord 64 0x8710000000000000))
          (fun t => t.reg .r1 == 0xFFFFFFFC00000000 && t.pc == 1) = true
      ∧ after (step (State.reset.withFetchWord 64 0x07000000FFFFFFC0)) (fun t => t.sp == 0x200000FC0) = true := by
  decide

/-! ### Every constructor decodes from a word written out, and runs -/

theorem test_decode_alu32 :
    decode v2 0x0410000000000001 none = .ok (.add32Imm .r1 0x00000001)
      ∧ decode v2 0x0C12000000000000 none = .ok (.add32Reg .r1 .r2)
      ∧ decode v2 0x1410000000000001 none = .ok (.sub32Imm .r1 0x00000001)
      ∧ decode v2 0x1C12000000000000 none = .ok (.sub32Reg .r1 .r2)
      ∧ decode v2 0x2410000000008000 none = .ok (.mul32Imm .r1 0x00008000)
      ∧ decode v2 0x2C12000000000000 none = .ok (.mul32Reg .r1 .r2)
      ∧ decode v2 0x3410000000000002 none = .ok (.div32Imm .r1 0x00000002)
      ∧ decode v2 0x3C12000000000000 none = .ok (.div32Reg .r1 .r2)
      ∧ decode v2 0x9410000000000004 none = .ok (.mod32Imm .r1 0x00000004)
      ∧ decode v2 0x9C12000000000000 none = .ok (.mod32Reg .r1 .r2)
      ∧ decode v1 0x8410000000000000 none = .ok (.neg32 .r1)
      ∧ decode v2 0x4410000000000001 none = .ok (.or32Imm .r1 0x00000001)
      ∧ decode v2 0x4C12000000000000 none = .ok (.or32Reg .r1 .r2)
      ∧ decode v2 0x5410000080000000 none = .ok (.and32Imm .r1 0x80000000)
      ∧ decode v2 0x5C12000000000000 none = .ok (.and32Reg .r1 .r2)
      ∧ decode v2 0xA4100000FFFFFFFF none = .ok (.xor32Imm .r1 0xFFFFFFFF)
      ∧ decode v2 0xAC12000000000000 none = .ok (.xor32Reg .r1 .r2)
      ∧ decode v2 0x6410000000000001 none = .ok (.lsh32Imm .r1 0x00000001)
      ∧ decode v2 0x6C12000000000000 none = .ok (.lsh32Reg .r1 .r2)
      ∧ decode v2 0x7410000000000004 none = .ok (.rsh32Imm .r1 0x00000004)
      ∧ decode v2 0x7C12000000000000 none = .ok (.rsh32Reg .r1 .r2)
      ∧ decode v2 0xC410000000000004 none = .ok (.arsh32Imm .r1 0x00000004)
      ∧ decode v2 0xCC12000000000000 none = .ok (.arsh32Reg .r1 .r2)
      ∧ decode v2 0xB4100000FFFFFFFF none = .ok (.mov32Imm .r1 0xFFFFFFFF)
      ∧ decode v2 0xBC12000000000000 none = .ok (.mov32Reg .r1 .r2) := by decide

theorem test_decode_alu64 :
    decode v2 0x0710000000000001 none = .ok (.add64Imm .r1 0x00000001)
      ∧ decode v2 0x0F12000000000000 none = .ok (.add64Reg .r1 .r2)
      ∧ decode v2 0x1710000000000001 none = .ok (.sub64Imm .r1 0x00000001)
      ∧ decode v2 0x1F12000000000000 none = .ok (.sub64Reg .r1 .r2)
      ∧ decode v2 0x2710000000000002 none = .ok (.mul64Imm .r1 0x00000002)
      ∧ decode v2 0x2F12000000000000 none = .ok (.mul64Reg .r1 .r2)
      ∧ decode v2 0x3710000000000002 none = .ok (.div64Imm .r1 0x00000002)
      ∧ decode v2 0x3F12000000000000 none = .ok (.div64Reg .r1 .r2)
      ∧ decode v2 0x971000000000000A none = .ok (.mod64Imm .r1 0x0000000A)
      ∧ decode v2 0x9F12000000000000 none = .ok (.mod64Reg .r1 .r2)
      ∧ decode v1 0x8710000000000000 none = .ok (.neg64 .r1)
      ∧ decode v2 0x4710000080000000 none = .ok (.or64Imm .r1 0x80000000)
      ∧ decode v2 0x4F12000000000000 none = .ok (.or64Reg .r1 .r2)
      ∧ decode v2 0x57100000FFFFFF00 none = .ok (.and64Imm .r1 0xFFFFFF00)
      ∧ decode v2 0x5F12000000000000 none = .ok (.and64Reg .r1 .r2)
      ∧ decode v2 0xA7100000FFFFFFFF none = .ok (.xor64Imm .r1 0xFFFFFFFF)
      ∧ decode v2 0xAF12000000000000 none = .ok (.xor64Reg .r1 .r2)
      ∧ decode v2 0x6710000000000001 none = .ok (.lsh64Imm .r1 0x00000001)
      ∧ decode v2 0x6F12000000000000 none = .ok (.lsh64Reg .r1 .r2)
      ∧ decode v2 0x771000000000003F none = .ok (.rsh64Imm .r1 0x0000003F)
      ∧ decode v2 0x7F12000000000000 none = .ok (.rsh64Reg .r1 .r2)
      ∧ decode v2 0xC71000000000003F none = .ok (.arsh64Imm .r1 0x0000003F)
      ∧ decode v2 0xCF12000000000000 none = .ok (.arsh64Reg .r1 .r2)
      ∧ decode v2 0xB7100000FFFFFFFF none = .ok (.mov64Imm .r1 0xFFFFFFFF)
      ∧ decode v2 0xBF12000000000000 none = .ok (.mov64Reg .r1 .r2)
      ∧ decode v2 0xF710000012345678 none = .ok (.hor64Imm .r1 0x12345678) := by decide

theorem test_decode_pqr :
    decode v2 0x36100000FFFFFFFF none = .ok (.uhmul64Imm .r1 0xFFFFFFFF)
      ∧ decode v2 0x3E12000000000000 none = .ok (.uhmul64Reg .r1 .r2)
      ∧ decode v2 0xB6100000FFFFFFFF none = .ok (.shmul64Imm .r1 0xFFFFFFFF)
      ∧ decode v2 0xBE12000000000000 none = .ok (.shmul64Reg .r1 .r2)
      ∧ decode v2 0xC610000000000002 none = .ok (.sdiv32Imm .r1 0x00000002)
      ∧ decode v2 0xCE12000000000000 none = .ok (.sdiv32Reg .r1 .r2)
      ∧ decode v2 0xD610000000000002 none = .ok (.sdiv64Imm .r1 0x00000002)
      ∧ decode v2 0xDE12000000000000 none = .ok (.sdiv64Reg .r1 .r2)
      ∧ decode v2 0xE610000000000002 none = .ok (.srem32Imm .r1 0x00000002)
      ∧ decode v2 0xEE12000000000000 none = .ok (.srem32Reg .r1 .r2)
      ∧ decode v2 0xF610000000000002 none = .ok (.srem64Imm .r1 0x00000002)
      ∧ decode v2 0xFE12000000000000 none = .ok (.srem64Reg .r1 .r2) := by decide

theorem test_decode_jumps :
    decode v2 0x0500000500000000 none = .ok (.ja 0x0005)
      ∧ decode v2 0x1510000400000005 none = .ok (.jeqImm .r1 0x00000005 0x0004)
      ∧ decode v2 0x1D12000400000000 none = .ok (.jeqReg .r1 .r2 0x0004)
      ∧ decode v2 0x5510000400000005 none = .ok (.jneImm .r1 0x00000005 0x0004)
      ∧ decode v2 0x5D12000400000000 none = .ok (.jneReg .r1 .r2 0x0004)
      ∧ decode v2 0x2510000400000001 none = .ok (.jgtImm .r1 0x00000001 0x0004)
      ∧ decode v2 0x2D12000400000000 none = .ok (.jgtReg .r1 .r2 0x0004)
      ∧ decode v2 0x35100004FFFFFFFF none = .ok (.jgeImm .r1 0xFFFFFFFF 0x0004)
      ∧ decode v2 0x3D12000400000000 none = .ok (.jgeReg .r1 .r2 0x0004)
      ∧ decode v2 0xA5100004FFFFFFFF none = .ok (.jltImm .r1 0xFFFFFFFF 0x0004)
      ∧ decode v2 0xAD12000400000000 none = .ok (.jltReg .r1 .r2 0x0004)
      ∧ decode v2 0xB510000400000001 none = .ok (.jleImm .r1 0x00000001 0x0004)
      ∧ decode v2 0xBD12000400000000 none = .ok (.jleReg .r1 .r2 0x0004)
      ∧ decode v2 0x6510000400000001 none = .ok (.jsgtImm .r1 0x00000001 0x0004)
      ∧ decode v2 0x6D12000400000000 none = .ok (.jsgtReg .r1 .r2 0x0004)
      ∧ decode v2 0x75100004FFFFFFFF none = .ok (.jsgeImm .r1 0xFFFFFFFF 0x0004)
      ∧ decode v2 0x7D12000400000000 none = .ok (.jsgeReg .r1 .r2 0x0004)
      ∧ decode v2 0xC510000400000001 none = .ok (.jsltImm .r1 0x00000001 0x0004)
      ∧ decode v2 0xCD12000400000000 none = .ok (.jsltReg .r1 .r2 0x0004)
      ∧ decode v2 0xD5100004FFFFFFFF none = .ok (.jsleImm .r1 0xFFFFFFFF 0x0004)
      ∧ decode v2 0xDD12000400000000 none = .ok (.jsleReg .r1 .r2 0x0004)
      ∧ decode v2 0x4510000400000010 none = .ok (.jsetImm .r1 0x00000010 0x0004)
      ∧ decode v2 0x4D12000400000000 none = .ok (.jsetReg .r1 .r2 0x0004) := by decide

theorem test_decode_loads_and_stores :
    decode v2 0x711AFFF800000000 none = .ok (.ldxb .r1 .r10 0xFFF8)
      ∧ decode v2 0x691AFFF800000000 none = .ok (.ldxh .r1 .r10 0xFFF8)
      ∧ decode v2 0x611AFFF800000000 none = .ok (.ldxw .r1 .r10 0xFFF8)
      ∧ decode v2 0x791AFFF800000000 none = .ok (.ldxdw .r1 .r10 0xFFF8)
      ∧ decode v2 0x72A0FFF8FFFFFFFE none = .ok (.stbImm .r10 0xFFF8 0xFFFFFFFE)
      ∧ decode v2 0x6AA0FFF8FFFFFFFE none = .ok (.sthImm .r10 0xFFF8 0xFFFFFFFE)
      ∧ decode v2 0x62A0FFF8FFFFFFFE none = .ok (.stwImm .r10 0xFFF8 0xFFFFFFFE)
      ∧ decode v2 0x7AA0FFF8FFFFFFFE none = .ok (.stdwImm .r10 0xFFF8 0xFFFFFFFE)
      ∧ decode v2 0x73A2FFF800000000 none = .ok (.stbReg .r10 0xFFF8 .r2)
      ∧ decode v2 0x6BA2FFF800000000 none = .ok (.sthReg .r10 0xFFF8 .r2)
      ∧ decode v2 0x63A2FFF800000000 none = .ok (.stwReg .r10 0xFFF8 .r2)
      ∧ decode v2 0x7BA2FFF800000000 none = .ok (.stdwReg .r10 0xFFF8 .r2)
      ∧ decode v2 0x1810000055667788 (some 0x0000000011223344) = .ok (.lddw .r1 0x1122334455667788) := by decide

theorem test_decode_byte_swaps :
    decode v1 0xD410000000000010 none = .ok (.le16 .r1)
      ∧ decode v1 0xD410000000000020 none = .ok (.le32 .r1)
      ∧ decode v1 0xD410000000000040 none = .ok (.le64 .r1)
      ∧ decode v2 0xDC10000000000010 none = .ok (.be16 .r1)
      ∧ decode v2 0xDC10000000000020 none = .ok (.be32 .r1)
      ∧ decode v2 0xDC10000000000040 none = .ok (.be64 .r1) := by decide

theorem test_decode_calls :
    decode v2 0x8501000000000007 none = .ok (.callImm 1 0x00000007)
      ∧ decode v2 0x8D03000000000000 none = .ok (.callReg .r3)
      ∧ decode v2 0x9500000000000000 none = .ok (.exit)
      ∧ decode dyn 0x07000000FFFFFFC0 none = .ok (.addStk 0xFFFFFFC0) := by decide

theorem test_add32 :
    r1After v2 0x0410000000000001 0x000000007FFFFFFF 0 = some 0xFFFFFFFF80000000
      ∧ r1After v2 0x0c12000000000000 0x000000007FFFFFFF 0xAAAAAAAA00000001 = some 0xFFFFFFFF80000000
      ∧ r1After v2 0x0c12000000000000 0x00000000FFFFFFFF 0x0000000000000001 = some 0x0000000000000000
      ∧ r1After v2 0x0410000000000000 0x1234567880000000 0 = some 0xFFFFFFFF80000000 := by decide

theorem test_add64 :
    r1After v2 0x0710000000000001 0xFFFFFFFFFFFFFFFF 0 = some 0x0000000000000000
      ∧ r1After v2 0x0f12000000000000 0xFFFFFFFFFFFFFFFF 0x0000000000000001 = some 0x0000000000000000 := by decide

theorem test_sub32 :
    r1After v2 0x1410000000000001 0x0000000000000000 0 = some 0xFFFFFFFFFFFFFFFF
      ∧ r1After v2 0x1c12000000000000 0x0000000000000000 0x5555555500000001 = some 0xFFFFFFFFFFFFFFFF
      ∧ r1After v2 0x1c12000000000000 0x0000000080000000 0x0000000000000001 = some 0x000000007FFFFFFF := by decide

theorem test_sub64 :
    r1After v2 0x1710000000000001 0x0000000000000000 0 = some 0xFFFFFFFFFFFFFFFF
      ∧ r1After v2 0x1f12000000000000 0x0000000000000000 0x0000000000000001 = some 0xFFFFFFFFFFFFFFFF := by decide

theorem test_mul32 :
    r1After v2 0x2410000000008000 0x0000000000010000 0 = some 0xFFFFFFFF80000000
      ∧ r1After v2 0x2c12000000000000 0x0000000000010000 0xFFFFFFFF00008000 = some 0xFFFFFFFF80000000 := by decide

theorem test_mul64 :
    r1After v2 0x2710000000000002 0x8000000000000001 0 = some 0x0000000000000002
      ∧ r1After v2 0x2f12000000000000 0x8000000000000001 0x0000000000000002 = some 0x0000000000000002 := by decide

theorem test_div32 :
    r1After v2 0x3410000000000002 0xFFFFFFFF00000007 0 = some 0x0000000000000003
      ∧ r1After v2 0x3c12000000000000 0xFFFFFFFF00000007 0xFFFFFFFF00000002 = some 0x0000000000000003
      ∧ r1After v2 0x34100000ffffffff 0x00000000FFFFFFFE 0 = some 0x0000000000000000 := by decide

theorem test_div32_faults :
    faultsAs v2 0x3c12000000000000 0x0000000000000007 0x0000000100000000 (.divideByZero 10) := by decide

theorem test_div64 :
    r1After v2 0x3710000000000002 0xFFFFFFFFFFFFFFFE 0 = some 0x7FFFFFFFFFFFFFFF
      ∧ r1After v2 0x3f12000000000000 0xFFFFFFFFFFFFFFFE 0x0000000000000002 = some 0x7FFFFFFFFFFFFFFF
      ∧ r1After v2 0x37100000ffffffff 0xFFFFFFFFFFFFFFFE 0 = some 0x0000000000000000 := by decide

theorem test_div64_faults :
    faultsAs v2 0x3f12000000000000 0x000000000000000A 0x0000000000000000 (.divideByZero 10) := by decide

theorem test_mod32 :
    r1After v2 0x9410000000000004 0xFFFFFFFF00000007 0 = some 0x0000000000000003
      ∧ r1After v2 0x9c12000000000000 0xFFFFFFFF00000007 0xFFFFFFFF00000004 = some 0x0000000000000003 := by decide

theorem test_mod32_faults :
    faultsAs v2 0x9c12000000000000 0x0000000000000007 0xFFFFFFFF00000000 (.divideByZero 10) := by decide

theorem test_mod64 :
    r1After v2 0x971000000000000a 0xFFFFFFFFFFFFFFFF 0 = some 0x0000000000000005
      ∧ r1After v2 0x9f12000000000000 0xFFFFFFFFFFFFFFFF 0x000000000000000A = some 0x0000000000000005 := by decide

theorem test_neg32 :
    r1After v1 0x8410000000000000 0x0000000000000001 0 = some 0x00000000FFFFFFFF
      ∧ r1After v1 0x8410000000000000 0xFFFFFFFF80000000 0 = some 0x0000000080000000 := by decide

theorem test_neg64 :
    r1After v1 0x8710000000000000 0x0000000000000001 0 = some 0xFFFFFFFFFFFFFFFF
      ∧ r1After v1 0x8710000000000000 0x8000000000000000 0 = some 0x8000000000000000 := by decide

theorem test_or32 :
    r1After v2 0x4410000000000001 0xFFFFFFFF80000000 0 = some 0x0000000080000001
      ∧ r1After v2 0x4c12000000000000 0xFFFFFFFF80000000 0x1234567800000001 = some 0x0000000080000001 := by decide

theorem test_or64 :
    r1After v2 0x4710000080000000 0x0000000000000001 0 = some 0xFFFFFFFF80000001
      ∧ r1After v2 0x4f12000000000000 0x0000000000000001 0xF000000000000000 = some 0xF000000000000001 := by decide

theorem test_and32 :
    r1After v2 0x5410000080000000 0xFFFFFFFFFFFFFFFF 0 = some 0x0000000080000000
      ∧ r1After v2 0x5c12000000000000 0xFFFFFFFFFFFFFFFF 0xFFFFFFFF80000000 = some 0x0000000080000000 := by decide

theorem test_and64 :
    r1After v2 0x57100000ffffff00 0x123456789ABCDEF0 0 = some 0x123456789ABCDE00
      ∧ r1After v2 0x5f12000000000000 0x123456789ABCDEF0 0x00000000FFFFFFFF = some 0x000000009ABCDEF0 := by decide

theorem test_xor32 :
    r1After v2 0xa4100000ffffffff 0x123456789ABCDEF0 0 = some 0x000000006543210F
      ∧ r1After v2 0xac12000000000000 0x123456789ABCDEF0 0x00000000FFFFFFFF = some 0x000000006543210F := by decide

theorem test_xor64 :
    r1After v2 0xa7100000ffffffff 0x123456789ABCDEF0 0 = some 0xEDCBA9876543210F
      ∧ r1After v2 0xaf12000000000000 0x123456789ABCDEF0 0xFFFFFFFFFFFFFFFF = some 0xEDCBA9876543210F := by decide

theorem test_lsh32 :
    r1After v2 0x6410000000000001 0x0000000040000001 0 = some 0x0000000080000002
      ∧ r1After v2 0x6c12000000000000 0x0000000040000001 0x0000000000000021 = some 0x0000000080000002 := by decide

theorem test_lsh64 :
    r1After v2 0x6710000000000001 0x8000000000000001 0 = some 0x0000000000000002
      ∧ r1After v2 0x6f12000000000000 0x8000000000000001 0x0000000000000041 = some 0x0000000000000002
      ∧ r1After v2 0x6f12000000000000 0x0000000000000001 0x0000000000000040 = some 0x0000000000000001 := by decide

theorem test_rsh32 :
    r1After v2 0x7410000000000004 0xFFFFFFFF80000000 0 = some 0x0000000008000000
      ∧ r1After v2 0x7c12000000000000 0xFFFFFFFF80000000 0x0000000000000024 = some 0x0000000008000000
      ∧ r1After v2 0x7c12000000000000 0xFFFFFFFF80000000 0x0000000000000020 = some 0x0000000080000000 := by decide

theorem test_rsh64 :
    r1After v2 0x771000000000003f 0x8000000000000000 0 = some 0x0000000000000001
      ∧ r1After v2 0x7f12000000000000 0x8000000000000000 0x000000000000007F = some 0x0000000000000001 := by decide

theorem test_arsh32 :
    r1After v2 0xc410000000000004 0x0000000080000000 0 = some 0x00000000F8000000
      ∧ r1After v2 0xcc12000000000000 0x0000000080000000 0x0000000000000024 = some 0x00000000F8000000 := by decide

theorem test_arsh64 :
    r1After v2 0xc71000000000003f 0x8000000000000000 0 = some 0xFFFFFFFFFFFFFFFF
      ∧ r1After v2 0xcf12000000000000 0x8000000000000000 0x000000000000007F = some 0xFFFFFFFFFFFFFFFF := by decide

theorem test_mov32 :
    r1After v2 0xb4100000ffffffff 0x1111111111111111 0 = some 0x00000000FFFFFFFF
      ∧ r1After v2 0xbc12000000000000 0x1111111111111111 0x123456789ABCDEF0 = some 0x000000009ABCDEF0
      ∧ r1After v2 0xbc11000000000000 0xFFFFFFFF80000000 0 = some 0x0000000080000000 := by decide

theorem test_mov64 :
    r1After v2 0xb7100000ffffffff 0x1111111111111111 0 = some 0xFFFFFFFFFFFFFFFF
      ∧ r1After v2 0xbf12000000000000 0x1111111111111111 0x123456789ABCDEF0 = some 0x123456789ABCDEF0 := by decide

theorem test_hor64 :
    r1After v2 0xf710000012345678 0x00000000DEADBEEF 0 = some 0x12345678DEADBEEF
      ∧ r1After v2 0xf710000080000000 0xFFFF0000DEADBEEF 0 = some 0xFFFF0000DEADBEEF := by decide

theorem test_uhmul64 :
    r1After v2 0x36100000ffffffff 0xFFFFFFFFFFFFFFFF 0 = some 0xFFFFFFFFFFFFFFFE
      ∧ r1After v2 0x3e12000000000000 0xFFFFFFFFFFFFFFFF 0x0000000000000002 = some 0x0000000000000001
      ∧ r1After v2 0x3e12000000000000 0x8000000000000000 0x8000000000000000 = some 0x4000000000000000 := by decide

theorem test_shmul64 :
    r1After v2 0xb6100000ffffffff 0xFFFFFFFFFFFFFFFF 0 = some 0x0000000000000000
      ∧ r1After v2 0xbe12000000000000 0xFFFFFFFFFFFFFFFF 0x0000000000000002 = some 0xFFFFFFFFFFFFFFFF
      ∧ r1After v2 0xbe12000000000000 0x8000000000000000 0x8000000000000000 = some 0x4000000000000000
      ∧ r1After v2 0xbe12000000000000 0xFFFFFFFFFFFFFFFF 0xFFFFFFFFFFFFFFFF = some 0x0000000000000000 := by decide

theorem test_sdiv32 :
    r1After v2 0xc610000000000002 0x00000000FFFFFFF9 0 = some 0xFFFFFFFFFFFFFFFD
      ∧ r1After v2 0xce12000000000000 0x00000000FFFFFFF9 0x00000000FFFFFFFE = some 0x0000000000000003
      ∧ r1After v2 0xce12000000000000 0xFFFFFFFF00000007 0x00000000FFFFFFFE = some 0xFFFFFFFFFFFFFFFD := by decide

theorem test_sdiv32_faults :
    faultsAs v2 0xce12000000000000 0x0000000080000000 0x00000000FFFFFFFF (.divideOverflow 10) := by decide

theorem test_sdiv64 :
    r1After v2 0xd610000000000002 0xFFFFFFFFFFFFFFF9 0 = some 0xFFFFFFFFFFFFFFFD
      ∧ r1After v2 0xde12000000000000 0xFFFFFFFFFFFFFFF9 0xFFFFFFFFFFFFFFFE = some 0x0000000000000003 := by decide

theorem test_sdiv64_faults :
    faultsAs v2 0xde12000000000000 0x8000000000000000 0xFFFFFFFFFFFFFFFF (.divideOverflow 10)
      ∧ faultsAs v2 0xde12000000000000 0x0000000000000007 0x0000000000000000 (.divideByZero 10) := by decide

theorem test_srem32 :
    r1After v2 0xe610000000000002 0x00000000FFFFFFF9 0 = some 0xFFFFFFFFFFFFFFFF
      ∧ r1After v2 0xee12000000000000 0x00000000FFFFFFF9 0x00000000FFFFFFFE = some 0xFFFFFFFFFFFFFFFF := by decide

theorem test_srem64 :
    r1After v2 0xf610000000000002 0xFFFFFFFFFFFFFFF9 0 = some 0xFFFFFFFFFFFFFFFF
      ∧ r1After v2 0xfe12000000000000 0xFFFFFFFFFFFFFFF9 0xFFFFFFFFFFFFFFFE = some 0xFFFFFFFFFFFFFFFF
      ∧ r1After v2 0xfe12000000000000 0x0000000000000007 0xFFFFFFFFFFFFFFFE = some 0x0000000000000001 := by decide

theorem test_srem64_faults :
    faultsAs v2 0xfe12000000000000 0x8000000000000000 0xFFFFFFFFFFFFFFFF (.divideOverflow 10) := by decide

theorem test_jeq :
    pcAfter v2 0x1510000400000005 0x0000000000000005 0 = some 15
      ∧ pcAfter v2 0x1d12000400000000 0x0000000000000005 0x0000000000000005 = some 15
      ∧ pcAfter v2 0x15100004ffffffff 0x00000000FFFFFFFF 0 = some 11 := by decide

theorem test_jne :
    pcAfter v2 0x5510000400000005 0x0000000000000005 0 = some 11
      ∧ pcAfter v2 0x5d12000400000000 0x0000000000000005 0x0000000000000006 = some 15 := by decide

theorem test_jgt :
    pcAfter v2 0x2510000400000001 0xFFFFFFFFFFFFFFFF 0 = some 15
      ∧ pcAfter v2 0x2d12000400000000 0xFFFFFFFFFFFFFFFF 0x0000000000000001 = some 15
      ∧ pcAfter v2 0x25100004ffffffff 0xFFFFFFFFFFFFFFFF 0 = some 11 := by decide

theorem test_jge :
    pcAfter v2 0x35100004ffffffff 0x0000000000000001 0 = some 11
      ∧ pcAfter v2 0x3d12000400000000 0x0000000000000001 0xFFFFFFFFFFFFFFFF = some 11 := by decide

theorem test_jlt :
    pcAfter v2 0xa5100004ffffffff 0x0000000000000001 0 = some 15
      ∧ pcAfter v2 0xad12000400000000 0x0000000000000001 0xFFFFFFFFFFFFFFFF = some 15 := by decide

theorem test_jle :
    pcAfter v2 0xb510000400000001 0xFFFFFFFFFFFFFFFF 0 = some 11
      ∧ pcAfter v2 0xbd12000400000000 0xFFFFFFFFFFFFFFFF 0x0000000000000001 = some 11 := by decide

theorem test_jsgt :
    pcAfter v2 0x6510000400000001 0xFFFFFFFFFFFFFFFF 0 = some 11
      ∧ pcAfter v2 0x6d12000400000000 0xFFFFFFFFFFFFFFFF 0x0000000000000001 = some 11 := by decide

theorem test_jsge :
    pcAfter v2 0x75100004ffffffff 0x8000000000000000 0 = some 11
      ∧ pcAfter v2 0x7d12000400000000 0x8000000000000000 0x7FFFFFFFFFFFFFFF = some 11 := by decide

theorem test_jslt :
    pcAfter v2 0xc510000400000001 0xFFFFFFFFFFFFFFFF 0 = some 15
      ∧ pcAfter v2 0xcd12000400000000 0xFFFFFFFFFFFFFFFF 0x0000000000000001 = some 15 := by decide

theorem test_jsle :
    pcAfter v2 0xd5100004ffffffff 0x8000000000000000 0 = some 15
      ∧ pcAfter v2 0xdd12000400000000 0x8000000000000000 0x7FFFFFFFFFFFFFFF = some 15 := by decide

theorem test_jset :
    pcAfter v2 0x4510000400000010 0x00000000000000F0 0 = some 15
      ∧ pcAfter v2 0x4d12000400000000 0x00000000000000F0 0x000000000000000F = some 11
      ∧ pcAfter v2 0x4510000480000000 0x8000000000000000 0 = some 15 := by decide

theorem test_le16 :
    r1After v1 0xd410000000000010 0x1122334455667788 0 = some 0x0000000000007788 := by decide

theorem test_le32 :
    r1After v1 0xd410000000000020 0x1122334455667788 0 = some 0x0000000055667788 := by decide

theorem test_le64 :
    r1After v1 0xd410000000000040 0x1122334455667788 0 = some 0x1122334455667788 := by decide

theorem test_be16 :
    r1After v2 0xdc10000000000010 0x1122334455667788 0 = some 0x0000000000008877
      ∧ r1After v2 0xdc10000000000010 0x00000000000000FF 0 = some 0x000000000000FF00 := by decide

theorem test_be32 :
    r1After v2 0xdc10000000000020 0x1122334455667788 0 = some 0x0000000088776655 := by decide

theorem test_be64 :
    r1After v2 0xdc10000000000040 0x1122334455667788 0 = some 0x8877665544332211 := by decide

theorem test_division_immediates_are_unsigned :
    r1After v2 0x37100000FFFFFFFF 0xFFFFFFFFFFFFFFFE 0 = some 0
      ∧ r1After v2 0x34100000FFFFFFFF 0x00000000FFFFFFFE 0 = some 0 := by decide

/-- An unverified division by an immediate 0 (R105, log 7). -/
theorem test_division_by_immediate_zero : faultsAs v2 0x3710000000000000 5 0 (.divideByZero 10) = true := by decide

theorem test_ja :
    pcAfter v2 0x0500000500000000 0 0 = some 16 ∧ pcAfter v2 0x0500FFFD00000000 0 0 = some 8
      ∧ pcAfter v2 0x0500FFFF00000000 0 0 = some 10 := by decide

/-! ### Loads and stores (L2.4) -/

/-- The bytes `88 77 66 55 44 33 22 11` at `0x200000FF8`. -/
def eight : Memory :=
  [(0x200000FF8, 0x88), (0x200000FF9, 0x77), (0x200000FFA, 0x66), (0x200000FFB, 0x55), (0x200000FFC, 0x44),
    (0x200000FFD, 0x33), (0x200000FFE, 0x22), (0x200000FFF, 0x11)]

/-- `r1` after a load with those bytes in memory. -/
def loaded (w : Word) : Option Word :=
  match step { at10 v2 [w] with mem := eight } with
  | .next t => if t.mem = eight ∧ t.pc = 11 then some (t.reg .r1) else none
  | _ => none

/-- Memory after a store with `r2 = 0x1122334455667788` and memory listing nothing. -/
def stored (w : Word) : Option Memory :=
  match step ((at10 v2 [w]).setReg .r2 0x1122334455667788) with
  | .next t => if t.pc = 11 ∧ t.status = .running then some t.mem else none
  | _ => none

theorem test_loads :
    loaded 0x711AFFF800000000 = some 0x88 ∧ loaded 0x691AFFF800000000 = some 0x7788
      ∧ loaded 0x611AFFF800000000 = some 0x55667788 ∧ loaded 0x791AFFF800000000 = some 0x1122334455667788
      ∧ loaded 0x691AFFFE00000000 = some 0x1122 ∧ loaded 0x611AFFFC00000000 = some 0x11223344 := by decide

theorem test_register_stores :
    stored 0x73A2FFF800000000 = some (eight.take 1) ∧ stored 0x6BA2FFF800000000 = some (eight.take 2)
      ∧ stored 0x63A2FFF800000000 = some (eight.take 4) ∧ stored 0x7BA2FFF800000000 = some eight := by decide

theorem test_immediate_stores :
    stored 0x72A0FFF8FFFFFFFE = some [(0x200000FF8, 0xFE)]
      ∧ stored 0x6AA0FFF8FFFFFFFE = some [(0x200000FF8, 0xFE), (0x200000FF9, 0xFF)]
      ∧ stored 0x62A0FFF8FFFFFFFE =
          some [(0x200000FF8, 0xFE), (0x200000FF9, 0xFF), (0x200000FFA, 0xFF), (0x200000FFB, 0xFF)]
      ∧ (stored 0x7AA0FFF8FFFFFFFE).map List.length = some 8 := by decide

/-- A misaligned load under the `fault` policy, and accesses outside what is permitted. -/
theorem test_access_violations :
    after (step { State.reset.withFetchWord 64 0x792AFFFC00000000 with mem := eight })
        (fun t => t.status == .faulted (.accessViolation 0 0x200000FFC 8 .load) && t.reg .r2 == 0) = true
      ∧ faultsAs v2 0x7210000000000000 0x100000000 0 (.accessViolation 10 0x100000000 1 .store) = true
      ∧ faultsAs v2 0x791100F900000000 0x400000000 0 (.accessViolation 10 0x4000000F9 8 .load) = true
      ∧ faultsAs v2 0x7111FFFF00000000 0 0 (.accessViolation 10 0xFFFFFFFFFFFFFFFF 1 .load) = true := by decide

/-- A load sees the serialised program text (R45). -/
theorem test_program_text_is_readable :
    after (step ({ (State.reset.withFetchWord 64 0x7121000000000000) with pc := 0 }.setReg .r1 0x100000000))
      (fun t => t.reg .r2 == 0x71) = true := by decide

theorem test_lddw :
    after (step (at10 v2 [0x1810000080000000, 0])) (fun t => t.reg .r1 == 0x80000000 && t.pc == 12) = true
      ∧ after (step (at10 v2 [0x1810000055667788, 0x11223344]))
          (fun t => t.reg .r1 == 0x1122334455667788 && t.pc == 12) = true := by decide

/-- A write keeps memory canonical: writing what an unlisted address reads as removes the entry. -/
theorem test_memory_is_canonical :
    Memory.write (Memory.write [] 7 1) 7 0 = [] ∧ Memory.write [(3, 1), (9, 1)] 5 2 = [(3, 1), (5, 2), (9, 1)]
      ∧ Memory.wf [(3, 1), (3, 2)] = false ∧ Memory.wf [(3, 0)] = false ∧ eight.wf = true := by decide

/-! ### Calls and returns (L2.6) -/

/-- The machine at slot 10 with `r6` to `r9` set to 1 to 4, one function and one syscall. -/
def caller (m : Isa) (text : List Slot) : State :=
  let s := at10 m text
  { s with
    regs := { s.regs with r6 := 1, r7 := 2, r8 := 3, r9 := 4 }
    params := { s.params with functions := [(7, 5)], syscalls := [0x1234] } }

/-- What `call_imm` and `call_reg` save at slot 10. -/
def saved : Frame := ⟨1, 2, 3, 4, 0x200001000, 11⟩

/-- The machine in the callee of `caller`, about to execute the word. -/
def callee (w : Slot) : State :=
  { (at10 v2 [w]).setReg .r0 42 with frames := [saved], sp := 0x200002000 }.setReg .r10 0x200002000

theorem test_call_imm :
    after (step (caller v2 [0x8501000000000007])) (fun t => t.pc == 5 && t.frames == [saved]
      && t.sp == 0x200002000 && t.reg .r10 == 0x200002000 && t.reg .r6 == 1) = true
      ∧ after (step (caller dyn [0x8501000000000007])) (fun t => t.sp == 0x200001000
          && t.reg .r10 == 0x200001000 && t.frames.length == 1) = true := by decide

theorem test_call_imm_faults :
    after (step (caller v2 [0x8501000000000008])) (fun t => t.status == .faulted (.unsupportedInstruction 10)
      && t.frames == []) = true
      ∧ after (step (caller v2 [0x8500000000009999]))
          (fun t => t.status == .faulted (.unsupportedInstruction 10)) = true := by decide

theorem test_call_reg :
    after (step ((caller v2 [0x8D03000000000000, 0x9500000000000000]).setReg .r3 0x100000058))
      (fun t => t.pc == 11 && t.frames == [saved]) = true
      ∧ after (step ((caller v1 [0x8D00000000000003]).setReg .r3 0x100000028)) (fun t => t.pc == 5) = true := by
  decide

theorem test_call_reg_faults :
    after (step ((caller v2 [0x8D03000000000000]).setReg .r3 0x100000004))
      (fun t => t.status == .faulted (.callOutsideTextSegment 10 0x100000004)) = true
      ∧ after (step ((caller v2 [0x8D03000000000000]).setReg .r3 0x100000058))
          (fun t => t.status == .faulted (.callOutsideTextSegment 10 0x100000058)) = true
      ∧ after (step (caller v2 [0x8D0A000000000000]))
          (fun t => t.status == .faulted (.callOutsideTextSegment 10 0x200001000)) = true := by decide

theorem test_exit :
    after (step (callee 0x9500000000000000)) (fun t => t.pc == 11 && t.frames == [] && t.sp == 0x200001000
      && t.reg .r10 == 0x200001000 && t.reg .r6 == 1 && t.reg .r9 == 4 && t.reg .r0 == 42) = true
      ∧ after (step ((at10 v2 [0x9500000000000000]).setReg .r0 42))
          (fun t => t.status == .exited 42 && t.pc == 10 && t.meter == 1) = true := by decide

theorem test_add_stk :
    after (step { at10 dyn [0x07000000FFFFFFC0] with sp := 0x200010000 })
      (fun t => t.sp == 0x20000FFC0 && t.reg .r10 == 0x200001000 && t.pc == 11) = true
      ∧ after (step ((at10 v1 [0x07000000FFFFFFC0]).setReg .r0 7))
          (fun t => t.reg .r0 == 0xFFFFFFFFFFFFFFC7 && t.sp == 0x200001000) = true := by decide

/-- A host's answer taken (R293): the result, the bytes of a region, and no byte outside the regions. -/
theorem test_syscall_answers :
    let s := caller v2 [0x8500000000001234]
    after (s.finish (s.hostAnswered (.ok 5 [(0x200000000, 7), (0x500000000, 1)])))
      (fun t => t.reg .r0 == 5 && t.reg .r6 == 1 && t.reg .r10 == 0x200001000 && t.pc == 11 && t.frames == []
        && t.mem == [(0x200000000, 7)]) = true
      ∧ after (s.finish (s.hostAnswered (.error 3)))
          (fun t => t.status == .faulted (.syscallError 10 3) && t.reg .r0 == 0 && t.pc == 10) = true := by decide

/-- The call depth limit (R291, R407). -/
theorem test_call_depth :
    after (step { caller v2 [0x8501000000000007] with frames := List.replicate 64 saved })
      (fun t => t.status == .faulted (.callDepthExceeded 10) && t.frames.length == 64 && t.meter == 1) = true := by
  decide

/-! ### Fetch, budget, launch (L2.7, part 3) -/

theorem test_overrun :
    after (step { at10 v2 [0] with pc := 11 }) (fun t => t.status == .faulted (.executionOverrun 11) && t.meter == 1)
        = true
      ∧ after (step { at10 v2 [0] with pc := -1 }) (fun t => t.status == .faulted (.executionOverrun (-1))) = true
      ∧ after (step State.reset) (fun t => t.status == .faulted (.executionOverrun 0)) = true := by decide

/-- The second slot of an `lddw`, executed (R77). -/
theorem test_illegal_slot : faultsAs v2 0x0000000011223344 0 0 (.unsupportedInstruction 10) = true := by decide

/-- `ja -1` with a budget that is spent. -/
def spent : State :=
  let s := at10 v2 [0x0500FFFF00000000]
  { s with meter := 100, params := { s.params with insnBudget := some 100 } }

theorem test_budget :
    after (step spent) (fun t => t.status == .faulted (.exceededMaxInstructions 10) && t.meter == 100) = true
      ∧ after (step { spent with meter := 99 }) (fun t => t.status == .running && t.meter == 100) = true := by decide

theorem test_no_step_after_the_end :
    step { at10 v2 [0] with status := .exited 5 } = .fault (.runEnded (.exited 5)) := rfl

/-- The program P1 of 95_test_vectors, as a loader image. -/
def p1 : LoadImage :=
  { LoadImage.atReset with
    params :=
      { Params.atReset with
        program := [0xB700000000000000, 0xB710000000000005, 0x0F01000000000000, 0x1710000000000001,
          0x5510FFFD00000000, 0x9500000000000000] } }

theorem test_launch :
    launch p1 = .next p1.launchState ∧ p1.launchState.mem.read 0x100000010 = 0x0F
      ∧ launch { p1 with entryPc := 6 } = .refused (.verifierError 6 .entryOutside) := ⟨rfl, rfl, rfl⟩

theorem test_verifier :
    verifier v2 [] = some (0, .emptyProgram) ∧ verifier v2 [0xB700000000000000, 0x6710000000000040]
        = some (1, .illegalEncoding)
      ∧ verifier v2 [0x3710000000000000] = some (0, .illegalEncoding)
      ∧ verifier v2 [0x0500000500000000] = some (0, .jumpOutside)
      ∧ verifier v2 [0x0500000100000000, 0x1810000000000000, 0, 0x9500000000000000] = some (0, .jumpIntoLddw)
      ∧ verifier v2 [0x0500000200000000, 0x1810000000000000, 0, 0x9500000000000000] = none := by decide

theorem test_function_targets_are_checked :
    LoadImage.check { p1 with params := { p1.params with functions := [(1, 6)] } } = some (6, .functionTarget) := by
  decide

/-! ### Witnesses: the hypotheses of each obligation can be met -/

/-- The first byte and the last four bytes of the stack region may be read and written at reset. -/
theorem permitted_stack (k : Access) :
    Permitted State.reset.params.regions k 0x200000000 1 ∧ Permitted State.reset.params.regions k 0x200001FFC 4 := by
  constructor <;> refine ⟨0x200000000, ⟨8192, .rw⟩, .inr (.inl ⟨rfl, rfl⟩), by decide, by decide, ?_⟩ <;>
    cases k <;> simp

/-- Neither the byte below the stack region nor one more than its last four bytes. -/
theorem not_permitted_edges (k : Access) :
    ¬Permitted State.reset.params.regions k 0x1FFFFFFFF 1
      ∧ ¬Permitted State.reset.params.regions k 0x200001FFD 4 := by
  constructor <;> rintro ⟨b, r, ⟨rfl, rfl⟩ | ⟨rfl, rfl⟩ | ⟨rfl, rfl⟩ | ⟨rfl, rfl⟩, h1, h2, -⟩ <;>
    simp [State.reset, Params.atReset] at h1 h2

/-- The program region is read-only at reset. -/
theorem not_permitted_store_to_text : ¬Permitted State.reset.params.regions .store 0x100000000 1 := by
  rintro ⟨b, r, ⟨rfl, rfl⟩ | ⟨rfl, rfl⟩ | ⟨rfl, rfl⟩ | ⟨rfl, rfl⟩, h1, h2, h3⟩ <;>
    simp [State.reset, Params.atReset] at h1 h2 h3

theorem witness_LaunchSetsStateAndShowsProgramText :
    launch p1 = .next p1.launchState ∧ p1.params.program[5]? = some 0x9500000000000000
      ∧ p1.params.wf = true ∧ 255 < p1.params.regions.input.size
      ∧ p1.params.textVaddr.toNat + 8 * p1.params.program.length ≤ 0x100000000 + 48 :=
  ⟨rfl, rfl, rfl, by decide, by decide⟩

/-- `mov64 r1, 10` at slot 10, alone and with a budget of one instruction. -/
def moving : State := at10 v2 [0xB71000000000000A]
def movingOnce : State := { moving with params := { moving.params with insnBudget := some 1 } }

theorem witness_StepRunsTheDecodedInstruction :
    moving.status = .running ∧ moving.overBudget = false ∧ moving.pc = (10 : Nat)
      ∧ moving.params.program[10]? = some 0xB71000000000000A
      ∧ decode moving.params.isa 0xB71000000000000A moving.params.program[11]? = .ok (.mov64Imm .r1 10) := by decide

/-- One witness for each clause, at the values where they meet: a budget just spent and one instruction
short of it, the two indices next to the program, an illegal slot. -/
theorem witness_StepFaultsBeforeExecution :
    (spent.status = .running ∧ spent.params.insnBudget = some 100 ∧ 100 ≤ spent.meter)
      ∧ ({ spent with meter := 99 }).meter < 100
      ∧ moving.params.insnBudget = none ∧ (({ moving with pc := 11 }).params.program.length : Int) ≤ 11
      ∧ ({ moving with pc := -1 }).pc < 0
      ∧ (at10 v2 [0]).params.program[10]? = some 0 ∧ decode v2 0 none = .error .unassignedOpcode := by decide

theorem witness_EveryInstructionAnswersANextState :
    moving.status = .running ∧ ({ moving with status := .exited 1 }).status ≠ .running := by decide

/-- `exit` at slot 10 and depth 0. -/
def ending : State := (at10 v2 [0x9500000000000000]).setReg .r0 42
def ended : State := { ending with status := .exited 42, meter := 1 }

theorem witness_ExitAtDepthZeroIsTheOnlyNormalEnd :
    ending.frames = [] ∧ step ending = .next ended ∧ ended.status = .exited 42 := ⟨rfl, rfl, rfl⟩

theorem witness_FaultsArePrecise :
    step spent = .next (spent.faultWith (.exceededMaxInstructions 10))
      ∧ step (at10 v2 [0]) = .next ((at10 v2 [0]).tick.faultWith (.unsupportedInstruction 10)) := ⟨rfl, rfl⟩

/-- `moving` after its step. -/
def moved : State := { moving.setReg .r1 10 with pc := 11, meter := 1 }

theorem witness_MeterCountsSteps :
    step moving = .next moved ∧ moving.params.insnBudget = none
      ∧ step spent = .next (spent.faultWith (.exceededMaxInstructions 10)) ∧ spent.params.insnBudget = some 100
      ∧ 100 ≤ spent.meter := ⟨rfl, rfl, rfl, rfl, by decide⟩

/-- The bound is reached: one instruction, and the step that finds the budget spent. -/
theorem witness_BudgetBoundsTheRun :
    movingOnce.params.insnBudget = some 1
      ∧ Reaches 2 movingOnce
          { movingOnce.setReg .r1 10 with
            pc := 11, meter := 1, status := .faulted (.exceededMaxInstructions 11) } :=
  ⟨rfl, { movingOnce.setReg .r1 10 with pc := 11, meter := 1 }, rfl,
    { movingOnce.setReg .r1 10 with pc := 11, meter := 1, status := .faulted (.exceededMaxInstructions 11) },
    rfl, rfl⟩

theorem witness_DecodeInvertsEncode :
    (Instr.rsh64Imm .r9 63).availableIn v2 = true ∧ (Instr.rsh64Imm .r9 63).wf = true
      ∧ (Instr.callReg .r9).availableIn v1 = true ∧ (Instr.callReg .r10).availableIn v2 = true
      ∧ (Instr.addStk 0x80000000).availableIn dyn = true ∧ (Instr.lddw .r0 0).wf = true := by decide

theorem witness_DecodedInstructionsAreLegal :
    decode v2 0x77900000000000FF none = .error .badImmediate
      ∧ decode v2 0x779000000000003F none = .ok (.rsh64Imm .r9 63)
      ∧ decode v2 0x3710000000000000 none = .ok (.div64Imm .r1 0) ∧ (Instr.div64Imm .r1 0).wf = false
      ∧ decode v2 0x1810000000000001 (some 2) = .ok (.lddw .r1 0x200000001)
      ∧ encode v2 (.lddw .r1 0x200000001) = [0x1810000000000001, 2] := by decide

/-- Next to what decodes: register numbers one too high, `r10` as a written destination, the `lddw` pair with
`src` 1 and with a field set in its second slot (R74, R77). -/
theorem test_fields_next_to_legal_ones :
    decode v2 0xBFA1000000000000 none = .error .badRegister ∧ decode v2 0xBF1B000000000000 none = .error .badRegister
      ∧ decode v2 0x7BB1000000000000 none = .error .badRegister ∧ decode v1 0x8D0000000000000A none = .error .badImmediate
      ∧ decode v2 0x1811000000000001 (some 2) = .error .badLddw
      ∧ decode v2 0x1810000000000001 (some 0x0000000100000002) = .error .badLddw := by decide

/-- Slots that differ in unused fields only: the immediate of `neg64`, all of `exit`, the `src` field of
`call_reg` in v1, the offset of `lddw`. -/
theorem witness_UnusedFieldsAreIgnored :
    usesOf .v1 0x87 = { dst := true } ∧ usesOf .v2 0x95 = {} ∧ usesOf .v1 0x8d = { imm := true }
      ∧ decode v1 0x8710000000000000 none = .ok (.neg64 .r1) ∧ decode v1 0x871F123412345678 none = .ok (.neg64 .r1)
      ∧ decode v2 0x95FFFFFFFFFFFFFF none = .ok .exit ∧ decode v1 0x8DFFFFFF00000003 none = .ok (.callReg .r3)
      ∧ decode v2 0x1810FFFF00000001 (some 2) = .ok (.lddw .r1 0x200000001) := by decide

/-- An `lddw` with its second half, the same slot without one, and what a linear scan skips: of three such
slots in a row the middle one. -/
theorem witness_InstructionLengths :
    decode v2 0x1810000000000001 (some 2) = .ok (.lddw .r1 0x200000001)
      ∧ decode v2 0x1810000000000001 none = .error .badLddw ∧ opcodeField 0x9500000000000000 ≠ 0x18
      ∧ secondSlots 0 [0x1810000000000000, 0x1810000000000000, 0x1810000000000000] = [1] := by decide

/-- A program with an `lddw`, and a jump over it to the last slot. -/
def jumping : List Slot := [0x0500000200000000, 0x1810000000000000, 0, 0x9500000000000000]

theorem witness_VerifiedProgramsDecodeAndJumpInside :
    verifier v2 jumping = none ∧ jumping[0]? = some 0x0500000200000000 ∧ 0 ∉ secondSlots 0 jumping
      ∧ 2 ∈ secondSlots 0 jumping ∧ jumpOffset (.ja 2) = some 2 := by decide

/-- Launches on both sides of each check: `ENTRY_PC` the last slot and one more, a `FUNCTIONS` entry likewise,
one at the second slot of an `lddw`, a text the verifier refuses, and that text with `VERIFY` off. -/
theorem witness_LaunchObeysTheVerifier :
    let wide : LoadImage := { p1 with params := { p1.params with program := jumping } }
    let bad : LoadImage := { p1 with params := { p1.params with program := [0] } }
    p1.verify = true ∧ p1.check = none ∧ { p1 with entryPc := 5 }.check = none
      ∧ { p1 with entryPc := 6 }.check = some (6, .entryOutside)
      ∧ { p1 with params := { p1.params with functions := [(1, 5)] } }.check = none
      ∧ { p1 with params := { p1.params with functions := [(1, 6)] } }.check = some (6, .functionTarget)
      ∧ { wide with params := { wide.params with functions := [(1, 2)] } }.check = some (2, .functionTarget)
      ∧ verifier v2 bad.params.program = some (0, .illegalEncoding) ∧ bad.verify = true
      ∧ { bad with verify := false }.verify = false := by decide

/-- The text of `jumping` meets the checks slot by slot: a jump to the last slot, an `lddw`, its second half
(which is not checked), an `exit`. -/
theorem witness_TextsThatMeetTheChecksAreAccepted :
    0 < jumping.length ∧ secondSlots 0 jumping = [2]
      ∧ decode v2 0x0500000200000000 (some 0x1810000000000000) = .ok (.ja 2) ∧ (0 : Int) + 1 + (2 : Offset).toInt = 3
      ∧ decode v2 0x1810000000000000 (some 0) = .ok (.lddw .r1 0) ∧ jumpOffset (.lddw .r1 0) = none
      ∧ decode v2 0x9500000000000000 none = .ok .exit ∧ jumpOffset .exit = none := by decide

theorem witness_Shift64Results : (0 : Imm).toNat ≤ 63 ∧ (63 : Imm).toNat ≤ 63 := by decide
theorem witness_Shift32Results : (0 : Imm).toNat ≤ 31 ∧ (31 : Imm).toNat ≤ 31 := by decide

theorem witness_UnsignedDivision64Results : State.reset.reg .r1 ≠ 0 ∧ (0xFFFFFFFF : Imm) ≠ 0 := by decide

theorem witness_UnsignedDivision32Results :
    (moved.reg .r1).extractLsb' 0 32 ≠ 0 ∧ (0xFFFFFFFF : Imm) ≠ 0 := by decide

/-- `r1` of reset is not 0 and its low half is. -/
theorem witness_DivideByZeroFaults :
    State.reset.reg .r2 = 0 ∧ (State.reset.reg .r1).extractLsb' 0 32 = 0 ∧ State.reset.reg .r1 ≠ 0 := by decide

/-- `r1` and `r2` at the two ends where the signed clauses meet: the most negative value by -1 and by 1. -/
def least64 : State := (State.reset.setReg .r1 0x8000000000000000).setReg .r2 0xFFFFFFFFFFFFFFFF
def least32 : State := (State.reset.setReg .r1 0x80000000).setReg .r2 0xFFFFFFFF

def least64ByOne : State := least64.setReg .r2 1
def least32ByOne : State := least32.setReg .r2 1

theorem witness_SignedDivision64Results :
    (least64ByOne.reg .r2).toInt ≠ 0
      ∧ ¬((least64ByOne.reg .r1).toInt = -2 ^ 63 ∧ (least64ByOne.reg .r2).toInt = -1)
      ∧ (1 : Imm).toInt ≠ 0 ∧ ¬((least64.reg .r1).toInt = -2 ^ 63 ∧ (1 : Imm).toInt = -1) := by decide

theorem witness_SignedDivision32Results :
    ((least32ByOne.reg .r2).extractLsb' 0 32).toInt ≠ 0
      ∧ ¬(((least32ByOne.reg .r1).extractLsb' 0 32).toInt = -2 ^ 31
          ∧ ((least32ByOne.reg .r2).extractLsb' 0 32).toInt = -1)
      ∧ (1 : Imm).toInt ≠ 0
      ∧ ¬(((least32.reg .r1).extractLsb' 0 32).toInt = -2 ^ 31 ∧ (1 : Imm).toInt = -1) := by decide

theorem witness_DivideOverflowFaults :
    (least64.reg .r1).toInt = -2 ^ 63 ∧ (least64.reg .r2).toInt = -1
      ∧ ((least32.reg .r1).extractLsb' 0 32).toInt = -2 ^ 31
      ∧ ((least32.reg .r2).extractLsb' 0 32).toInt = -1 := by decide

theorem witness_JumpResults :
    (5 : Word).toInt = (5 : Imm).toInt ∧ ¬((6 : Word).toInt = (5 : Imm).toInt)
      ∧ immNat 0xFFFFFFFF = 2 ^ 64 - 1 := by decide

theorem witness_MemReadResult :
    (PolicyAllows State.reset (0x200001FFC : Word).toNat Width.w.bytes
        ∧ Permitted State.reset.params.regions .load (0x200001FFC : Word).toNat Width.w.bytes)
      ∧ ¬(PolicyAllows State.reset (0x200001FFD : Word).toNat Width.w.bytes
          ∧ Permitted State.reset.params.regions .load (0x200001FFD : Word).toNat Width.w.bytes) :=
  ⟨⟨fun _ => by decide, (permitted_stack .load).2⟩, fun h => (not_permitted_edges .load).2 h.2⟩

theorem witness_MemWriteResult :
    State.reset.mem.wf = true
      ∧ (PolicyAllows State.reset (0x200001FFC : Word).toNat Width.w.bytes
        ∧ Permitted State.reset.params.regions .store (0x200001FFC : Word).toNat Width.w.bytes)
      ∧ ¬(PolicyAllows State.reset (0x100000000 : Word).toNat Width.b.bytes
          ∧ Permitted State.reset.params.regions .store (0x100000000 : Word).toNat Width.b.bytes) :=
  ⟨rfl, ⟨fun _ => by decide, (permitted_stack .store).2⟩, fun h => not_permitted_store_to_text h.2⟩

theorem witness_CanonicalMemoriesThatReadTheSameAreEqual :
    eight.wf = true ∧ (Memory.write (Memory.write eight 5 1) 5 0).wf = true
      ∧ ∀ a, Memory.read eight a = Memory.read (Memory.write (Memory.write eight 5 1) 5 0) a :=
  ⟨rfl, rfl, fun _ => rfl⟩

/-- `r10` is 0x200001000: offset 0x0FFC reaches the last four bytes of the stack region, offset 0xF000 its
first byte, offset 0x0FFD runs past its end, offset 0xEFFF lies below it. -/
theorem witness_LoadResults :
    (PolicyAllows State.reset (State.reset.address .r10 0x0FFC).toNat 4
        ∧ Permitted State.reset.params.regions .load (State.reset.address .r10 0x0FFC).toNat 4)
      ∧ PolicyAllows State.reset (State.reset.address .r10 0xF000).toNat 1
      ∧ Permitted State.reset.params.regions .load (State.reset.address .r10 0xF000).toNat 1 :=
  ⟨⟨fun _ => by decide, (permitted_stack .load).2⟩, fun _ => by decide, (permitted_stack .load).1⟩

theorem witness_StoreResults :
    State.reset.mem.wf = true
      ∧ (PolicyAllows State.reset (State.reset.address .r10 0x0FFC).toNat 4
        ∧ Permitted State.reset.params.regions .store (State.reset.address .r10 0x0FFC).toNat 4)
      ∧ PolicyAllows State.reset (State.reset.address .r10 0xF000).toNat 1
      ∧ Permitted State.reset.params.regions .store (State.reset.address .r10 0xF000).toNat 1 :=
  ⟨rfl, ⟨fun _ => by decide, (permitted_stack .store).2⟩, fun _ => by decide, (permitted_stack .store).1⟩

/-- Past the end, below the start, and misaligned inside the region under the `fault` policy. -/
theorem witness_AccessViolationFaults :
    ¬(PolicyAllows State.reset (State.reset.address .r10 0x0FFD).toNat 4
        ∧ Permitted State.reset.params.regions .load (State.reset.address .r10 0x0FFD).toNat 4)
      ∧ ¬(PolicyAllows State.reset (State.reset.address .r10 0xEFFF).toNat 1
          ∧ Permitted State.reset.params.regions .store (State.reset.address .r10 0xEFFF).toNat 1)
      ∧ ¬(PolicyAllows State.reset (State.reset.address .r10 0x0001).toNat 2
          ∧ Permitted State.reset.params.regions .load (State.reset.address .r10 0x0001).toNat 2) :=
  ⟨fun h => (not_permitted_edges .load).2 h.2, fun h => (not_permitted_edges .store).1 h.2,
    fun h => absurd (h.1 rfl) (by decide)⟩

/-- `stb [r10-8], -2` executed at reset. -/
def storing : Instr := .stbImm .r10 0xFFF8 0xFFFFFFFE
def afterStoring : State := { State.reset with mem := [(0x200000FF8, 0xFE)], pc := 1 }

theorem witness_OnlyWritableBytesChange :
    State.reset.mem.wf = true ∧ exec storing State.reset = .next afterStoring
      ∧ (∀ key, storing ≠ .callImm 0 key) ∧ afterStoring.mem.read 0x200000FF8 ≠ State.reset.mem.read 0x200000FF8 :=
  ⟨rfl, rfl, fun _ => by simp [storing], by decide⟩

theorem witness_OnlyStoresAndSyscallsWriteMemory :
    exec storing State.reset = .next afterStoring ∧ afterStoring.mem ≠ State.reset.mem := ⟨rfl, by decide⟩

/-- Slot 5 by its key, and the last slot of the program by its address. -/
theorem witness_InternalCallResults :
    let s := (caller v2 [0]).setReg .r3 0x100000050
    s.frames.length < s.params.maxCallDepth ∧ lookupFunction 7 s.params.functions = some 5
      ∧ (s.reg .r3).toNat = s.params.textVaddr.toNat + 8 * 10 ∧ 10 < s.params.program.length
      ∧ (15 : BitVec 4) ≠ 0 := by decide

theorem witness_CallFaults :
    let s := caller v2 [0]
    let full := { s with frames := List.replicate 64 saved }
    (0x9999 ∉ s.params.syscalls) ∧ lookupFunction 8 s.params.functions = none
      ∧ full.params.maxCallDepth ≤ full.frames.length ∧ lookupFunction 7 full.params.functions = some 5
      ∧ s.frames.length < s.params.maxCallDepth
      ∧ ∀ n, n < s.params.program.length → (s.reg .r1).toNat ≠ s.params.textVaddr.toNat + 8 * n := by decide

theorem witness_SyscallResult :
    (caller v2 [0]).mem.wf = true ∧ 0x1234 ∈ (caller v2 [0]).params.syscalls := by decide

theorem witness_ExitResults : (callee 0).frames = [saved] ∧ (at10 v2 [0]).frames = [] := ⟨rfl, rfl⟩

/-- A call of slot 5 by the word at slot 10, and the return from it. -/
def called : State :=
  let s := caller v2 [0]
  { s.setReg .r10 0x200002000 with frames := [saved], sp := 0x200002000, pc := 5 }
def returned : State := { (caller v2 [0]).setReg .r0 9 with pc := 11 }

theorem witness_ReturnRestoresTheCaller :
    IsInternalCall (.callImm 1 7) ∧ exec (.callImm 1 7) (caller v2 [0]) = .next called
      ∧ called.status = .running ∧ (caller v2 [0]).status = .running
      ∧ ((called.setReg .r6 100).setReg .r0 9).frames = called.frames
      ∧ ((called.setReg .r6 100).setReg .r0 9).params = (caller v2 [0]).params
      ∧ exec .exit ((called.setReg .r6 100).setReg .r0 9) = .next returned
      ∧ ((called.setReg .r6 100).setReg .r0 9).sp = called.sp :=
  ⟨.inl ⟨1, 7, by decide, rfl⟩, rfl, rfl, rfl, rfl, rfl, rfl, rfl⟩

theorem witness_OnlyCallsAndExitWriteTheFramePointer :
    exec (.callImm 1 7) (caller v2 [0]) = .next called ∧ called.reg .r10 ≠ (caller v2 [0]).reg .r10 :=
  ⟨rfl, by decide⟩

theorem witness_OnlyCallsPushAndExitPopsFrames : exec (.callImm 1 7) (caller v2 [0]) = .next called := rfl

theorem witness_WhoWritesTheStackPointer :
    exec (.addStk 8) State.reset = .next { State.reset with sp := 0x200001008, pc := 1 }
      ∧ ({ State.reset with sp := 0x200001008, pc := 1 } : State).sp ≠ State.reset.sp := ⟨rfl, by decide⟩

theorem witness_HiddenStateIsInvisible :
    ¬IsInternalCall storing ∧ storing ≠ .exit ∧ (∀ imm, storing ≠ .addStk imm)
      ∧ exec storing State.reset = .next afterStoring := by
  refine ⟨?_, by simp [storing], fun _ => by simp [storing], rfl⟩
  rintro (⟨_, _, _, h⟩ | ⟨_, h⟩) <;> simp [storing] at h

theorem witness_EveryLaunchEstablishesTheInvariant :
    p1.params.wf = true ∧ launch p1 = .next p1.launchState
      ∧ launch { p1 with verify := false } = .next p1.launchState := ⟨rfl, rfl, rfl⟩

/-- The machine in a callee with fixed frames keeps every part of the invariant, and runs on. -/
theorem witness_StepKeepsTheInvariant :
    (callee 0x9500000000000000).Inv ∧ ∃ t, step (callee 0x9500000000000000) = .next t ∧ t.pc = 11 := by
  refine ⟨⟨⟨rfl, fun c hc => by cases hc⟩, ?_, fun _ => ⟨rfl, by decide, trivial⟩, ?_⟩, _, rfl, rfl⟩
  · exact (by decide : (1 : Nat) ≤ 64)
  · intro f hf
    rcases List.mem_singleton.mp hf with rfl
    exact ⟨by decide, by decide⟩

end Sys2Proof.Tests
end

section
/-! PROOFS. The scope of the machine (00_scope): what a launch answers, its state at reset, and the table
`ALU32_EXT`. -/

namespace Sys2Proof.Machine

/-! ### The checks of a launch -/

/-- What the verifier reports comes before the checks of `FUNCTIONS` and `ENTRY_PC` (R84, log 19). -/
theorem LoadImage.check_of_verifier_eq_some {g : LoadImage} {e : Nat × VerifyReason}
    (he : verifier g.params.isa g.params.program = some e) : g.check = some e := by
  simp only [LoadImage.check, he]

/-- The checks pass exactly when the verifier accepts, every `FUNCTIONS` slot may be entered and `ENTRY_PC` is
a slot (R84, R451, R452 (4), R455). -/
theorem LoadImage.check_eq_none_iff {g : LoadImage} :
    g.check = none ↔
      verifier g.params.isa g.params.program = none
        ∧ (∀ e ∈ g.params.functions,
            e.2 < g.params.program.length ∧ e.2 ∉ secondSlots 0 g.params.program)
        ∧ g.entryPc < g.params.program.length := by
  cases hv : verifier g.params.isa g.params.program with
  | some e => simp [check_of_verifier_eq_some hv]
  | none =>
    rw [← badFunction_eq_none]
    cases hf : badFunction g.params.program.length (secondSlots 0 g.params.program) g.params.functions with
    | some t => simp [LoadImage.check, Params.nSlots, hv, hf]
    | none =>
      by_cases hentry : g.entryPc < g.params.program.length <;>
        simp [LoadImage.check, Params.nSlots, hv, hf, hentry]

/-! ### What a launch answers, by `VERIFY` and the checks -/

theorem launch_of_verify_off {g : LoadImage} (hoff : g.verify = false) : launch g = .next g.launchState := by
  obtain ⟨-, h⟩ | ⟨slot, why, hon, -⟩ := launch_cases g
  · exact h
  · simp [hoff] at hon

theorem launch_of_check_eq_none {g : LoadImage} (hc : g.check = none) : launch g = .next g.launchState := by
  obtain ⟨-, h⟩ | ⟨slot, why, -, hs, -⟩ := launch_cases g
  · exact h
  · simp [hc] at hs

theorem launch_of_check_eq_some {g : LoadImage} {slot : Nat} {why : VerifyReason} (hon : g.verify = true)
    (hc : g.check = some (slot, why)) : launch g = .refused (.verifierError slot why) := by
  obtain ⟨hoff | hnone, -⟩ | ⟨slot', why', -, hs, h⟩ := launch_cases g
  · simp [hon] at hoff
  · simp [hc] at hnone
  · obtain ⟨rfl, rfl⟩ : slot = slot' ∧ why = why' := by simpa [hc] using hs
    exact h

/-- With `VERIFY` true a state comes only of checks that pass (R411). -/
theorem launch_gives_state_iff {g : LoadImage} (hon : g.verify = true) :
    (∃ s, launch g = .next s) ↔ g.check = none := by
  refine ⟨fun ⟨s, hs⟩ => ?_, fun hc => ⟨_, launch_of_check_eq_none hc⟩⟩
  cases hc : g.check with
  | none => rfl
  | some e => simp [launch_of_check_eq_some hon hc] at hs

/-- Settles O60, from what the checks say and what a launch answers to each verdict. -/
theorem launchObeysTheVerifier : Obligations.LaunchObeysTheVerifier := by
  intro g program targets passes
  have hpasses : g.check = none ↔ passes := LoadImage.check_eq_none_iff
  refine ⟨fun hon => (launch_gives_state_iff hon).trans hpasses, fun hon hfails => ?_,
    fun slot why hon hv => launch_of_check_eq_some hon (LoadImage.check_of_verifier_eq_some hv),
    fun hoff => ⟨_, launch_of_verify_off hoff⟩⟩
  cases hc : g.check with
  | none => exact absurd (hpasses.mp hc) hfails
  | some e => exact ⟨e.1, e.2, launch_of_check_eq_some hon hc⟩

/-! ### Reset -/

/-- The empty image starts in `State.reset`, whatever `VERIFY` is: its regions have no bytes to place. -/
theorem launchState_of_atReset (verify : Bool) :
    { LoadImage.atReset with verify := verify }.launchState = State.reset := rfl

/-- R84: a program without slots is refused at slot 0. -/
theorem verifier_nil (m : Isa) : verifier m [] = some (0, .emptyProgram) := rfl

/-- Settles O1: `VERIFY` off gives the launch state, `VERIFY` on meets the empty program. -/
theorem resetIsTheLaunchStateOfTheEmptyImage : Obligations.ResetIsTheLaunchStateOfTheEmptyImage := by
  have hoff : launch { LoadImage.atReset with verify := false } = .next State.reset :=
    (launch_of_verify_off rfl).trans (congrArg _ (launchState_of_atReset false))
  have hon : launch LoadImage.atReset = .refused (.verifierError 0 .emptyProgram) :=
    launch_of_check_eq_some rfl (LoadImage.check_of_verifier_eq_some (verifier_nil _))
  have hwf : State.reset.params.wf = true := rfl
  exact ⟨hoff, rfl, hon, rfl, rfl, rfl, rfl, rfl, rfl, rfl, hwf⟩

/-- Settles O19: the table of log 16, mnemonic by mnemonic. -/
theorem alu32ExtTable : Obligations.Alu32ExtTable := by
  intro op
  cases op with
  | add32 | sub32 | mul32 | sdiv32 | srem32 => rfl
  | div32 | mod32 | neg32 | or32 | and32 | xor32 | lsh32 | rsh32 | arsh32 | mov32 => rfl

end Sys2Proof.Machine
end

section
/-! PROOFS. Memory as data (20_memory): the canonical form is determined by what memory reads, blocks of bytes read
back as written, and what is written stays in the regions. -/

namespace Sys2Proof.Machine

/-! ### Reading a canonical memory -/

@[simp] theorem Memory.read_cons_self (a : Nat) (v : Byte) (m : Memory) : Memory.read ((a, v) :: m) a = v := by
  simp [Memory.read]

theorem Memory.read_cons_of_lt {a c : Nat} (h : a < c) (v : Byte) (m : Memory) :
    Memory.read ((a, v) :: m) c = Memory.read m c := by
  have hne : c ≠ a := by omega
  have hlt : ¬c < a := by omega
  simp [Memory.read, hne, hlt]

/-- The first address a canonical memory lists is the lowest that does not read as unlisted. -/
theorem Memory.head_le_of_read_ne {lo a b : Nat} {w : Byte} {n : Memory}
    (hn : Memory.wfFrom lo ((b, w) :: n) = true) (hr : Memory.read ((b, w) :: n) a ≠ Memory.unlisted) :
    b ≤ a := by
  obtain ⟨-, hw, htail⟩ := Memory.wfFrom_cons.mp hn
  by_contra hlt
  exact hr (Memory.read_of_lt (Memory.wfFrom_cons.mpr ⟨le_refl b, hw, htail⟩) (by omega))

/-- The tails of two canonical memories with the same head read alike when the whole memories do. -/
theorem Memory.read_tail_eq {a : Nat} {v : Byte} {m n : Memory} (hm : Memory.wfFrom (a + 1) m = true)
    (hn : Memory.wfFrom (a + 1) n = true)
    (h : ∀ c, Memory.read ((a, v) :: m) c = Memory.read ((a, v) :: n) c) (c : Nat) :
    Memory.read m c = Memory.read n c := by
  by_cases hc : a < c
  · simpa only [Memory.read_cons_of_lt hc] using h c
  · rw [Memory.read_of_lt hm (by omega), Memory.read_of_lt hn (by omega)]

/-- The canonical form is determined by what memory reads (log 4). -/
theorem Memory.eq_of_read_eq {lo : Nat} {m n : Memory} (hm : Memory.wfFrom lo m = true)
    (hn : Memory.wfFrom lo n = true) (h : ∀ c, Memory.read m c = Memory.read n c) : m = n := by
  induction m generalizing lo n with
  | nil =>
    cases n with
    | nil => rfl
    | cons e n =>
      obtain ⟨b, w⟩ := e
      obtain ⟨-, hw, -⟩ := Memory.wfFrom_cons.mp hn
      exact absurd ((Memory.read_cons_self b w n).symm.trans (h b).symm) hw
  | cons d m ih =>
    obtain ⟨a, v⟩ := d
    obtain ⟨-, hv, hm'⟩ := Memory.wfFrom_cons.mp hm
    cases n with
    | nil => exact absurd ((Memory.read_cons_self a v m).symm.trans (h a)) hv
    | cons e n =>
      obtain ⟨b, w⟩ := e
      obtain ⟨-, hw, hn'⟩ := Memory.wfFrom_cons.mp hn
      have hba : b ≤ a := Memory.head_le_of_read_ne hn (by rwa [← h a, Memory.read_cons_self])
      have hab : a ≤ b := Memory.head_le_of_read_ne hm (by rwa [h b, Memory.read_cons_self])
      obtain rfl : a = b := le_antisymm hab hba
      obtain rfl : v = w := by simpa using h a
      rw [ih hm' hn' (Memory.read_tail_eq hm' hn' h)]

/-- Settles O37, by induction on the first memory: the heads agree, and then the tails read alike. -/
theorem canonicalMemoriesThatReadTheSameAreEqual : Obligations.CanonicalMemoriesThatReadTheSameAreEqual :=
  fun _ _ hm hn h => Memory.eq_of_read_eq hm hn h

/-! ### Reading a block of bytes after it was written -/

theorem Memory.read_writeBytes_of_outside {m : Memory} (hm : m.wf = true) {a c : Nat} {bs : List Byte}
    (h : c < a ∨ a + bs.length ≤ c) : (m.writeBytes a bs).read c = m.read c := by
  rw [Memory.read_writeBytes hm, dif_neg (by omega)]

theorem Memory.read_writeBytes_of_inside {m : Memory} (hm : m.wf = true) (a : Nat) {bs : List Byte} {i : Nat}
    (hi : i < bs.length) : (m.writeBytes a bs).read (a + i) = bs[i] := by
  rw [Memory.read_writeBytes hm, dif_pos (by omega)]
  simp only [Nat.add_sub_cancel_left]

@[simp] theorem Memory.readBytes_length (m : Memory) (a n : Nat) : (m.readBytes a n).length = n := by
  induction n generalizing a with
  | zero => rfl
  | succ n ih => simp [Memory.readBytes, ih]

theorem Memory.readBytes_getElem (m : Memory) (a n i : Nat) (h : i < (m.readBytes a n).length) :
    (m.readBytes a n)[i] = m.read (a + i) := by
  induction n generalizing a i with
  | zero => simp at h
  | succ n ih =>
    cases i with
    | zero => rfl
    | succ i =>
      simp only [Memory.readBytes, List.getElem_cons_succ, ih]
      congr 1; omega

/-- A part of a written block reads back as it was given. -/
theorem Memory.readBytes_writeBytes_append {m : Memory} (hm : m.wf = true) (a : Nat) (before part after : List Byte) :
    (m.writeBytes a (before ++ part ++ after)).readBytes (a + before.length) part.length = part := by
  refine List.ext_getElem (Memory.readBytes_length ..) fun i h₁ h₂ => ?_
  have hi : before.length + i < (before ++ part ++ after).length := by simp only [List.length_append]; omega
  rw [Memory.readBytes_getElem, Nat.add_assoc, Memory.read_writeBytes_of_inside hm a hi]
  simp [h₂]

/-! ### Bytes of the regions -/

/-- There is a byte at an address exactly when one of the four regions holds it (R40, R41). -/
theorem mapped_iff {g : Regions} {a : Nat} :
    mapped g a = true ↔ ∃ e ∈ regionList g, e.1 ≤ a ∧ a < e.1 + e.2.size := by
  simp [mapped, regionHolds]

/-- Every byte of a permitted access exists (R40, R43). -/
theorem mapped_of_permits {g : Regions} {k : Access} {a n c : Nat} (h : permits g k a n = true) (hac : a ≤ c)
    (hc : c < a + n) : mapped g c = true := by
  simp only [permits, regionHolds, List.any_eq_true, Bool.and_eq_true, decide_eq_true_eq] at h
  obtain ⟨e, he, ⟨hlo, hhi⟩, -⟩ := h
  exact mapped_iff.mpr ⟨e, he, by omega, by omega⟩

/-- A write of bytes of the regions lists no byte outside them. -/
theorem Memory.writeBytes_mapped {g : Regions} {m : Memory} {a : Nat} {bs : List Byte}
    (hm : ∀ c ∈ m, mapped g c.1 = true) (hw : ∀ c, a ≤ c → c < a + bs.length → mapped g c = true) :
    ∀ c ∈ m.writeBytes a bs, mapped g c.1 = true := fun c hc =>
  (Memory.mem_writeBytes hc).elim (fun hin => hw c.1 hin.1 hin.2) (hm c)

end Sys2Proof.Machine
end

section
/-! PROOFS. One instruction: that it answers from every state (60_exceptions R400), which part of the state each
effect leaves alone, and which instructions cannot see the hidden state (10_state R30, R31, R33). -/

namespace Sys2Proof.Machine

/-! ### Every instruction answers -/

theorem raise_answers (f : RunFault) (s : State) : ∃ t, raise f s = .next t := ⟨_, rfl⟩

/-- The end of an instruction that may fault is a next state either way (R27 (4), R400). -/
theorem State.finish_answers (s : State) (r : Except RunFault State) : ∃ t, s.finish r = .next t := by
  cases r with
  | ok u => exact ⟨u, rfl⟩
  | error f => exact raise_answers f s

/-- A key the host has is answered by the host (R293, R297). -/
theorem State.syscall_of_mem {s : State} {key : BitVec 32} (h : key ∈ s.params.syscalls) :
    s.syscall key = s.finish (s.hostAnswered (Config.hostAnswer s.draws key s.hostArgs s.mem)) := by
  simp [State.syscall, h]

theorem State.syscall_of_not_mem {s : State} {key : BitVec 32} (h : key ∉ s.params.syscalls) :
    s.syscall key = raise (.unsupportedInstruction s.pc) s := by
  simp [State.syscall, h]

/-- The arms of `exec` are of two kinds: those that cannot fault give their state, those that can end in
`State.finish` or `raise`. -/
theorem exec_answers (i : Instr) (s : State) : ∃ t, exec i s = .next t := by
  cases i with
  | callImm sel key =>
    obtain ⟨t, ht, -⟩ := callImm_effect sel key s
    exact ⟨t, ht⟩
  | callReg r =>
    obtain ⟨t, ht, -⟩ := callReg_effect r s
    exact ⟨t, ht⟩
  | exit =>
    obtain ⟨t, ht, -⟩ := exit_effect s
    exact ⟨t, ht⟩
  | div32Imm | div32Reg | div64Imm | div64Reg | mod32Imm | mod32Reg | mod64Imm | mod64Reg
  | sdiv32Imm | sdiv32Reg | sdiv64Imm | sdiv64Reg | srem32Imm | srem32Reg | srem64Imm | srem64Reg
  | ldxb | ldxh | ldxw | ldxdw
  | stbImm | sthImm | stwImm | stdwImm | stbReg | sthReg | stwReg | stdwReg =>
    exact State.finish_answers s _
  | _ => exact ⟨_, rfl⟩

/-! ### What each effect leaves alone -/

theorem Effect.params_eq {i : Instr} {s t : State} (h : Effect i s t) : t.params = s.params := by
  cases h <;> rfl

theorem Effect.meter_eq {i : Instr} {s t : State} (h : Effect i s t) : t.meter = s.meter := by
  cases h <;> rfl

theorem exec_params {i : Instr} {s t : State} (h : exec i s = .next t) : t.params = s.params :=
  (exec_next h).params_eq

theorem exec_meter {i : Instr} {s t : State} (h : exec i s = .next t) : t.meter = s.meter :=
  (exec_next h).meter_eq

/-- Settles O43: of the nine effects two write memory, a store and a host function's answer. -/
theorem onlyStoresAndSyscallsWriteMemory : Obligations.OnlyStoresAndSyscallsWriteMemory := by
  intro i s t h hmem
  cases exec_next h with
  | stores base off sz v hi hp =>
    obtain ⟨r, imm, hi⟩ := hi
    exact .inr ⟨base, r, off, imm, hi⟩
  | syscall key r0 ws hi ha => exact .inl ⟨key, hi⟩
  | fault | writes | jumps | calls | returns | ends | addStk => exact absurd rfl hmem

/-- Settles O51: a destination is never `r10` (R21), and a host function's answer leaves it. -/
theorem onlyCallsAndExitWriteTheFramePointer : Obligations.OnlyCallsAndExitWriteTheFramePointer := by
  intro i s t h hfp
  cases exec_next h with
  | calls n hi hd => exact .inl hi
  | returns f rest hi hf => exact .inr hi
  | ends hi hf => exact .inr hi
  | writes d v n => exact absurd (State.setReg_reg_ne s v (dst_reg_ne_fp d).symm) hfp
  | fault | jumps | stores | syscall | addStk => exact absurd rfl hfp

/-- Settles O52. -/
theorem onlyCallsPushAndExitPopsFrames : Obligations.OnlyCallsPushAndExitPopsFrames := by
  intro i s t h
  cases exec_next h with
  | calls n hi hd => exact .inr (.inl ⟨hi, rfl⟩)
  | returns f rest hi hf => exact .inr (.inr ⟨hi, f, hf⟩)
  | fault | writes | jumps | stores | syscall | ends | addStk => exact .inl rfl

/-- With dynamic frames a call leaves `sp` (R291). -/
theorem State.calleeSp_of_dynamic {s : State} (h : s.params.isa.dynamicStackFrames = true) : s.calleeSp = s.sp := by
  simp [State.calleeSp, h]

theorem State.calleeSp_of_fixed {s : State} (h : s.params.isa.dynamicStackFrames = false) :
    s.calleeSp = s.sp + s.params.frameStride := by
  simp [State.calleeSp, h]

/-- With dynamic frames a return leaves `sp` (R292). -/
theorem State.callerSp_of_dynamic {s : State} (h : s.params.isa.dynamicStackFrames = true) : s.callerSp = s.sp := by
  simp [State.callerSp, h]

theorem State.callerSp_of_fixed {s : State} (h : s.params.isa.dynamicStackFrames = false) :
    s.callerSp = s.sp - s.params.frameStride := by
  simp [State.callerSp, h]

/-- Settles O53: the calls and returns that move `sp` are those with fixed frames. -/
theorem whoWritesTheStackPointer : Obligations.WhoWritesTheStackPointer := by
  intro i s t h hsp
  cases exec_next h with
  | calls n hi hd =>
    exact .inr ⟨Bool.eq_false_of_not_eq_true fun hdyn => hsp (State.calleeSp_of_dynamic hdyn), .inl hi⟩
  | returns f rest hi hf =>
    exact .inr ⟨Bool.eq_false_of_not_eq_true fun hdyn => hsp (State.callerSp_of_dynamic hdyn), .inr hi⟩
  | addStk imm hi => exact .inl ⟨imm, hi⟩
  | fault | writes | jumps | stores | syscall | ends => exact absurd rfl hsp

/-! ### The results of `lddw` and `add_stk` -/

/-- Settles O41. -/
theorem lddwResult : Obligations.LddwResult := fun s d value =>
  ⟨(s.setReg d.reg value).setPc (s.pc + 2), rfl, State.setReg_reg_self s d.reg value, rfl,
    fun _ hq => State.setReg_reg_ne s value hq, fun _ => rfl, rfl, rfl, rfl, rfl, rfl, rfl⟩

/-- Adding a sign-extended immediate adds its integer value modulo 2^64 (R65, R320). -/
theorem toNat_add_sextImm (v : Word) (imm : Imm) :
    ((v + sextImm imm).toNat : Int) = (v.toNat + imm.toInt) % 2 ^ 64 := by
  have himm : (sextImm imm).toInt = imm.toInt := BitVec.toInt_signExtend_of_le (by decide)
  have hmod : ((sextImm imm).toNat : Int) % 2 ^ 64 = imm.toInt % 2 ^ 64 := by
    rw [← himm, BitVec.toInt_eq_toNat_bmod]
    exact Int.bmod_emod.symm
  rw [BitVec.toNat_add]
  push_cast
  omega

/-- Settles O50. -/
theorem addStkResult : Obligations.AddStkResult := fun s imm =>
  ⟨{ s with sp := s.sp + sextImm imm, pc := s.pc + 1 }, rfl, toNat_add_sextImm s.sp imm, rfl,
    fun _ => rfl, fun _ => rfl, rfl, rfl, rfl, rfl, rfl⟩

/-! ### The hidden state is invisible -/

/-- The machine with another stack pointer, other frames and another meter. -/
def State.withHidden (s : State) (sp : Word) (fs : List Frame) (n : Nat) : State :=
  { s with sp := sp, frames := fs, meter := n }

section
variable {s t : State} (sp : Word) (fs : List Frame) (n : Nat)

/-- An instruction that may fault ends alike with another hidden state when its writes are alike. -/
theorem State.finish_withHidden {α : Type} {r : Except RunFault α} {k k' : α → State}
    (hk : ∀ v, k' v = (k v).withHidden sp fs n) (h : s.finish (r.map k) = .next t) :
    (s.withHidden sp fs n).finish (r.map k') = .next (t.withHidden sp fs n) := by
  cases r with
  | ok v =>
    obtain rfl : k v = t := Host.Outcome.next.inj h
    exact congrArg Host.Outcome.next (hk v)
  | error f =>
    obtain rfl : s.faultWith f = t := Host.Outcome.next.inj h
    rfl

theorem State.memWrite_withHidden (a : Word) (sz : Width) (v : Word) :
    (s.withHidden sp fs n).memWrite a sz v = (s.memWrite a sz v).map fun u => u.withHidden sp fs n := by
  have hcheck : (s.withHidden sp fs n).checkAccess .store a sz = s.checkAccess .store a sz := rfl
  unfold State.memWrite
  rw [hcheck]
  cases s.checkAccess .store a sz with
  | ok u => rfl
  | error f => rfl

theorem State.store_withHidden {sz : Width} {base : Reg} {off : Offset} {v : Word}
    (h : s.store sz base off v = .next t) :
    (s.withHidden sp fs n).store sz base off v = .next (t.withHidden sp fs n) := by
  have haddr : (s.withHidden sp fs n).address base off = s.address base off := rfl
  unfold State.store
  rw [haddr, State.memWrite_withHidden]
  obtain ⟨u, hu, rfl⟩ | ⟨e, he, rfl⟩ := State.store_next h
  · rw [hu]; rfl
  · rw [he]; rfl

theorem State.hostAnswered_withHidden (a : HostAnswer) :
    (s.withHidden sp fs n).hostAnswered a = (s.hostAnswered a).map fun u => u.withHidden sp fs n := by
  cases a with
  | ok r0 ws => rfl
  | error e => rfl

/-- The host is given the draws, the arguments and memory, and none of the hidden state (R293). -/
theorem State.syscall_withHidden {key : BitVec 32} (h : s.syscall key = .next t) :
    (s.withHidden sp fs n).syscall key = .next (t.withHidden sp fs n) := by
  by_cases hkey : key ∈ s.params.syscalls
  · have hasked : Config.hostAnswer (s.withHidden sp fs n).draws key (s.withHidden sp fs n).hostArgs
        (s.withHidden sp fs n).mem = Config.hostAnswer s.draws key s.hostArgs s.mem := rfl
    rw [State.syscall_of_mem hkey] at h
    rw [State.syscall_of_mem (s := s.withHidden sp fs n) hkey, hasked, State.hostAnswered_withHidden]
    obtain hok | ⟨e, he, rfl⟩ := State.finish_next h
    · rw [hok]; rfl
    · rw [he]; rfl
  · rw [State.syscall_of_not_mem hkey] at h
    rw [State.syscall_of_not_mem (s := s.withHidden sp fs n) hkey]
    obtain rfl := raise_next.mp h
    rfl

/-- Of the other instructions the loads, the divisions, the stores and the syscalls may fault; what they test is
not hidden, and neither is anything that an instruction writes. -/
theorem exec_withHidden {i : Instr} (hcall : ¬IsInternalCall i) (hexit : i ≠ .exit)
    (hadd : ∀ imm, i ≠ .addStk imm) (h : exec i s = .next t) :
    exec i (s.withHidden sp fs n) = .next (t.withHidden sp fs n) := by
  cases i with
  | callReg r => exact absurd (.inr ⟨r, rfl⟩) hcall
  | exit => exact absurd rfl hexit
  | addStk imm => exact absurd rfl (hadd imm)
  | callImm sel key =>
    by_cases hsel : sel = 0
    · subst hsel
      exact State.syscall_withHidden sp fs n h
    · exact absurd (.inl ⟨sel, key, hsel, rfl⟩) hcall
  | stbImm | sthImm | stwImm | stdwImm | stbReg | sthReg | stwReg | stdwReg =>
    exact State.store_withHidden sp fs n h
  | div32Imm | div32Reg | div64Imm | div64Reg | mod32Imm | mod32Reg | mod64Imm | mod64Reg
  | sdiv32Imm | sdiv32Reg | sdiv64Imm | sdiv64Reg | srem32Imm | srem32Reg | srem64Imm | srem64Reg
  | ldxb | ldxh | ldxw | ldxdw =>
    exact State.finish_withHidden sp fs n (fun _ => rfl) h
  | _ =>
    obtain rfl := Host.Outcome.next.inj h
    rfl

end

/-- Settles O54. -/
theorem hiddenStateIsInvisible : Obligations.HiddenStateIsInvisible :=
  fun _ _ _ sp fs n hcall hexit hadd h => exec_withHidden sp fs n hcall hexit hadd h

end Sys2Proof.Machine
end

section
/-! PROOFS. One step (10_state R27): what it answers in each of its cases, the meter, and the bound that a budget
puts on a run. -/

namespace Sys2Proof.Machine

/-! ### The tests of a step -/

/-- R27 (1), R410: the budget is spent when the meter has reached it. -/
theorem State.overBudget_iff {s : State} :
    s.overBudget = true ↔ ∃ n, s.params.insnBudget = some n ∧ n ≤ s.meter := by
  unfold State.overBudget
  cases s.params.insnBudget <;> simp

theorem State.overBudget_eq_false_iff {s : State} :
    s.overBudget = false ↔ ∀ n, s.params.insnBudget = some n → s.meter < n := by
  unfold State.overBudget
  cases s.params.insnBudget <;> simp

theorem State.fetch_of_getElem? {s : State} {n : Nat} {w : Slot} (hpc : s.pc = n)
    (hw : s.params.program[n]? = some w) : s.fetch = some (w, s.params.program[n + 1]?) := by
  unfold State.fetch
  rw [hpc]
  simp [hw]

/-- R26: nothing is fetched at an index that is no slot's. -/
theorem State.fetch_of_outside {s : State} (h : s.pc < 0 ∨ s.params.program.length ≤ s.pc) : s.fetch = none := by
  cases hf : s.fetch with
  | none => rfl
  | some f =>
    obtain ⟨n, hpc, hw, -⟩ := State.fetch_some hf
    have hlt : n < s.params.program.length := (List.getElem?_eq_some_iff.mp hw).1
    omega

/-- What is fetched stands at a slot of the program (R26). -/
theorem State.pcInProgram_of_fetch {s : State} {f : Slot × Option Slot} (h : s.fetch = some f) : s.pcInProgram := by
  obtain ⟨n, hpc, hw, -⟩ := State.fetch_some h
  have hlt : n < s.nSlots := (List.getElem?_eq_some_iff.mp hw).1
  exact ⟨by omega, by omega⟩

/-! ### What a step answers, case by case (R27, R414) -/

section
variable {s : State}

theorem step_of_not_running (h : s.status ≠ .running) : step s = .fault (.runEnded s.status) := by
  unfold step
  cases hs : s.status with
  | running => exact absurd hs h
  | exited v => rfl
  | faulted f => rfl

theorem step_of_overBudget (hr : s.status = .running) (hb : s.overBudget = true) :
    step s = .next (s.faultWith (.exceededMaxInstructions s.pc)) := by
  simp [step, hr, hb, raise]

theorem step_of_fetch_eq_none (hr : s.status = .running) (hb : s.overBudget = false)
    (hf : s.tick.fetch = none) : step s = .next (s.tick.faultWith (.executionOverrun s.pc)) := by
  simp [step, hr, hb, hf, raise]

theorem step_of_decode_ok {f : Slot × Option Slot} {i : Instr} (hr : s.status = .running)
    (hb : s.overBudget = false) (hf : s.tick.fetch = some f) (hd : decode s.params.isa f.1 f.2 = .ok i) :
    step s = exec i s.tick := by
  simp [step, hr, hb, hf, State.execSlot, hd]

theorem step_of_decode_error {f : Slot × Option Slot} {e : Illegal} (hr : s.status = .running)
    (hb : s.overBudget = false) (hf : s.tick.fetch = some f) (hd : decode s.params.isa f.1 f.2 = .error e) :
    step s = .next (s.tick.faultWith (.unsupportedInstruction s.pc)) := by
  simp [step, hr, hb, hf, State.execSlot, hd, raise]

end

/-- Settles O3. -/
theorem stepRunsTheDecodedInstruction : Obligations.StepRunsTheDecodedInstruction := by
  intro s n w i hr hb hpc hw hd
  exact step_of_decode_ok hr hb (State.fetch_of_getElem? (s := s.tick) hpc hw) hd

/-- Settles O4, clause by clause in the order of R414. -/
theorem stepFaultsBeforeExecution : Obligations.StepFaultsBeforeExecution := by
  intro s hr
  refine ⟨fun n hn hspent => step_of_overBudget hr (State.overBudget_iff.mpr ⟨n, hn, hspent⟩), fun hleft => ?_⟩
  have hb : s.overBudget = false := State.overBudget_eq_false_iff.mpr hleft
  exact ⟨fun hout => step_of_fetch_eq_none hr hb (State.fetch_of_outside (s := s.tick) hout),
    fun n w e hpc hw hd => step_of_decode_error hr hb (State.fetch_of_getElem? (s := s.tick) hpc hw) hd⟩

/-- While the machine runs a step answers: each of its cases does. -/
theorem step_answers {s : State} (hr : s.status = .running) : ∃ t, step s = .next t := by
  cases hb : s.overBudget with
  | true => exact ⟨_, step_of_overBudget hr hb⟩
  | false =>
    cases hf : s.tick.fetch with
    | none => exact ⟨_, step_of_fetch_eq_none hr hb hf⟩
    | some f =>
      cases hd : decode s.params.isa f.1 f.2 with
      | error e => exact ⟨_, step_of_decode_error hr hb hf hd⟩
      | ok i =>
        obtain ⟨t, ht⟩ := exec_answers i s.tick
        exact ⟨t, (step_of_decode_ok hr hb hf hd).trans ht⟩

/-! ### The parameters and the meter along a step -/

theorem step_params {s t : State} (h : step s = .next t) : t.params = s.params := by
  obtain ⟨-, ⟨-, rfl⟩ | ⟨-, -, rfl⟩ | ⟨-, f, i, -, -, hexec⟩ | ⟨-, f, e, -, -, rfl⟩⟩ := step_next h
  · rfl
  · rfl
  · exact (exec_params hexec).trans s.tick_params
  · rfl

/-- Settles O5. -/
theorem everyInstructionAnswersANextState : Obligations.EveryInstructionAnswersANextState := by
  refine ⟨fun i s => ?_, fun s hr => ?_, fun s h => step_of_not_running h⟩
  · obtain ⟨t, ht⟩ := exec_answers i s
    exact ⟨t, ht, exec_params ht⟩
  · obtain ⟨t, ht⟩ := step_answers hr
    exact ⟨t, ht, step_params ht⟩

/-- A step the budget does not stop is counted, and nothing else moves the meter (R33). -/
theorem step_meter_of_budget_left {s t : State} (h : step s = .next t) (hb : s.overBudget = false) :
    t.meter = s.meter + 1 := by
  obtain ⟨-, ⟨hspent, -⟩ | ⟨-, -, rfl⟩ | ⟨-, f, i, -, -, hexec⟩ | ⟨-, f, e, -, -, rfl⟩⟩ := step_next h
  · simp [hb] at hspent
  · rfl
  · exact (exec_meter hexec).trans s.tick_meter
  · rfl

/-- A step that finds the budget spent is the run's last (R410). -/
theorem step_eq_of_overBudget {s t : State} (h : step s = .next t) (hb : s.overBudget = true) :
    t = s.faultWith (.exceededMaxInstructions s.pc) := by
  rw [step_of_overBudget (step_next h).1 hb] at h
  exact (Host.Outcome.next.inj h).symm

/-- Settles O8. -/
theorem meterCountsSteps : Obligations.MeterCountsSteps := by
  intro s t h
  refine ⟨fun hleft => step_meter_of_budget_left h (State.overBudget_eq_false_iff.mpr hleft),
    fun n hn hspent => ?_⟩
  rw [step_eq_of_overBudget h (State.overBudget_iff.mpr ⟨n, hn, hspent⟩)]
  rfl

/-- From a state whose run has ended no step leads on (R32). -/
theorem eq_zero_of_reaches_of_not_running {s t : State} {k : Nat} (hs : s.status ≠ .running)
    (h : Reaches k s t) : k = 0 := by
  cases k with
  | zero => rfl
  | succ k =>
    obtain ⟨u, hstep, -⟩ := h
    exact absurd (step_next hstep).1 hs

/-- Settles O9, by induction on the steps: each one uses up one instruction of the budget, but for the last. -/
theorem budgetBoundsTheRun : Obligations.BudgetBoundsTheRun := by
  intro s t n k hn h
  induction k generalizing s with
  | zero => exact Nat.zero_le _
  | succ k ih =>
    obtain ⟨u, hstep, hrest⟩ := h
    cases hb : s.overBudget with
    | true =>
      obtain rfl := step_eq_of_overBudget hstep hb
      have hk : k = 0 := eq_zero_of_reaches_of_not_running (by simp) hrest
      omega
    | false =>
      have hmeter : u.meter = s.meter + 1 := step_meter_of_budget_left hstep hb
      have hleft : s.meter < n := State.overBudget_eq_false_iff.mp hb n hn
      have hk : k ≤ n - u.meter + 1 := ih u (by rw [step_params hstep, hn]) hrest
      omega

end Sys2Proof.Machine
end

section
/-! PROOFS. Launch (10_state R35, 70_reset R450 to R452): the state it sets, the program text and the initial bytes
that memory shows. -/

namespace Sys2Proof.Machine

/-- A state that a launch gives is the launch state of the image (R35). -/
theorem eq_launchState_of_launch {g : LoadImage} {s : State} (h : launch g = .next s) : s = g.launchState := by
  obtain ⟨-, hl⟩ | ⟨slot, why, -, -, hl⟩ := launch_cases g
  · exact Host.Outcome.next.inj (h.symm.trans hl)
  · cases h.symm.trans hl

/-! ### Allowed parameters -/

/-- R42, R45: the text lies in the program region, and no region reaches the start of the next. -/
theorem Params.bounds_of_wf {p : Params} (h : p.wf = true) :
    programStart ≤ p.textVaddr.toNat
      ∧ p.textVaddr.toNat + 8 * p.program.length ≤ programStart + p.regions.program.size
      ∧ programStart + p.regions.program.size ≤ stackStart ∧ stackStart + p.regions.stack.size ≤ heapStart
      ∧ heapStart + p.regions.heap.size ≤ inputStart := by
  simp only [Params.wf, Bool.and_eq_true, decide_eq_true_eq, and_assoc] at h
  obtain ⟨-, -, hlo, hhi, hprogram, hstack, hheap, -⟩ := h
  exact ⟨hlo, hhi, Nat.add_le_add_left hprogram programStart, Nat.add_le_add_left hstack stackStart,
    Nat.add_le_add_left hheap heapStart⟩

/-! ### The bytes of a program text -/

@[simp] theorem slotBytes_length (w : Slot) : (slotBytes w).length = 8 := rfl

@[simp] theorem programBytes_length (p : List Slot) : (programBytes p).length = 8 * p.length := by
  induction p with
  | nil => rfl
  | cons w p ih =>
    have hcons : programBytes (w :: p) = slotBytes w ++ programBytes p := rfl
    rw [hcons, List.length_append, ih, slotBytes_length, List.length_cons]
    omega

/-- The serialisation of slot `i` stands `8 * i` bytes into that of the program (R45, R66). -/
theorem programBytes_split {p : List Slot} {i : Nat} {w : Slot} (h : p[i]? = some w) :
    programBytes p = programBytes (p.take i) ++ slotBytes w ++ programBytes (p.drop (i + 1)) := by
  obtain ⟨hi, hw⟩ := List.getElem?_eq_some_iff.mp h
  have hp : p = p.take i ++ w :: p.drop (i + 1) := by
    rw [← hw, List.cons_getElem_drop_succ, List.take_append_drop]
  conv_lhs => rw [hp]
  simp [programBytes]

/-! ### Placing the initial bytes of a region (R450; log 21) -/

/-- The initial bytes of a region, cut to its size, put into memory. -/
def Memory.place (m : Memory) (start : Nat) (r : Region) (bs : List Byte) : Memory :=
  m.writeBytes start (bs.take r.size)

section
variable {m : Memory} {start : Nat} {r : Region} {bs : List Byte}

theorem Memory.place_wf (hm : m.wf = true) : (m.place start r bs).wf = true :=
  Memory.writeBytes_wf hm _ _

theorem Memory.read_place_of_outside (hm : m.wf = true) {c : Nat} (h : c < start ∨ start + r.size ≤ c) :
    (m.place start r bs).read c = m.read c :=
  Memory.read_writeBytes_of_outside hm (by simp only [List.length_take]; omega)

/-- Over zeros a region reads as its initial bytes, and as 0 beyond their end. -/
theorem Memory.read_place (hm : m.wf = true) {i : Nat} (hi : i < r.size) (hzero : m.read (start + i) = 0) :
    (m.place start r bs).read (start + i) = bs.getD i 0 := by
  by_cases hlen : i < bs.length
  · have hin : i < (bs.take r.size).length := by simp only [List.length_take]; omega
    rw [Memory.place, Memory.read_writeBytes_of_inside hm start hin]
    simp [hlen]
  · have hout : start + (bs.take r.size).length ≤ start + i := by simp only [List.length_take]; omega
    rw [Memory.place, Memory.read_writeBytes_of_outside hm (.inr hout), hzero]
    simp [hlen]

theorem Memory.place_mapped {g : Regions} (hr : (start, r) ∈ regionList g) (hm : ∀ c ∈ m, mapped g c.1 = true) :
    ∀ c ∈ m.place start r bs, mapped g c.1 = true := by
  refine Memory.writeBytes_mapped hm fun c hlo hhi => mapped_iff.mpr ⟨(start, r), hr, hlo, ?_⟩
  show c < start + r.size
  simp only [List.length_take] at hhi
  omega

end

/-! ### The memory of a launch -/

/-! The stages of `LoadImage.memory`: each adds the initial bytes of one region to those before. -/

def LoadImage.programMemory (g : LoadImage) : Memory :=
  Memory.place [] programStart g.params.regions.program g.programData

def LoadImage.stackMemory (g : LoadImage) : Memory :=
  g.programMemory.place stackStart g.params.regions.stack g.stackBytes

def LoadImage.heapMemory (g : LoadImage) : Memory :=
  g.stackMemory.place heapStart g.params.regions.heap g.heapBytes

/-- All that stands in memory before the text is placed. -/
def LoadImage.dataMemory (g : LoadImage) : Memory :=
  g.heapMemory.place inputStart g.params.regions.input g.inputBytes

theorem LoadImage.memory_eq (g : LoadImage) :
    g.memory = g.dataMemory.writeBytes g.params.textVaddr.toNat (programBytes g.params.program) := rfl

section
variable (g : LoadImage)

theorem LoadImage.programMemory_wf : g.programMemory.wf = true := Memory.place_wf rfl
theorem LoadImage.stackMemory_wf : g.stackMemory.wf = true := Memory.place_wf g.programMemory_wf
theorem LoadImage.heapMemory_wf : g.heapMemory.wf = true := Memory.place_wf g.stackMemory_wf
theorem LoadImage.dataMemory_wf : g.dataMemory.wf = true := Memory.place_wf g.heapMemory_wf

theorem LoadImage.memory_wf : g.memory.wf = true := Memory.writeBytes_wf g.dataMemory_wf _ _

/-- The text is placed last, so that memory shows the serialisation of every slot (R45; log 21). -/
theorem LoadImage.readBytes_memory {i : Nat} {w : Slot} (hw : g.params.program[i]? = some w) :
    g.memory.readBytes (g.params.textVaddr.toNat + 8 * i) 8 = slotBytes w := by
  have hi : i < g.params.program.length := (List.getElem?_eq_some_iff.mp hw).1
  have hlen : (programBytes (g.params.program.take i)).length = 8 * i := by
    rw [programBytes_length, List.length_take, min_eq_left hi.le]
  have hread := Memory.readBytes_writeBytes_append g.dataMemory_wf g.params.textVaddr.toNat
    (programBytes (g.params.program.take i)) (slotBytes w) (programBytes (g.params.program.drop (i + 1)))
  rwa [hlen, slotBytes_length, ← programBytes_split hw, ← LoadImage.memory_eq] at hread

theorem LoadImage.read_memory_of_outside_text {c : Nat}
    (h : c < g.params.textVaddr.toNat ∨ g.params.textVaddr.toNat + 8 * g.params.program.length ≤ c) :
    g.memory.read c = g.dataMemory.read c :=
  Memory.read_writeBytes_of_outside g.dataMemory_wf (by rwa [programBytes_length])

end

/-! The four regions do not meet, so that each reads as its own bytes before the text is placed (R41, R450). -/

section
variable {g : LoadImage} (hwf : g.params.wf = true) {i : Nat}
include hwf

theorem LoadImage.read_memory_of_stackStart_le {c : Nat} (h : stackStart ≤ c) :
    g.memory.read c = g.dataMemory.read c := by
  obtain ⟨-, htext, hprogram, -, -⟩ := Params.bounds_of_wf hwf
  exact g.read_memory_of_outside_text (.inr (by omega))

theorem LoadImage.read_program (hi : i < g.params.regions.program.size) :
    g.dataMemory.read (programStart + i) = g.programData.getD i 0 := by
  obtain ⟨-, -, hprogram, hstack, hheap⟩ := Params.bounds_of_wf hwf
  rw [dataMemory, Memory.read_place_of_outside g.heapMemory_wf (by omega),
    heapMemory, Memory.read_place_of_outside g.stackMemory_wf (by omega),
    stackMemory, Memory.read_place_of_outside g.programMemory_wf (by omega)]
  exact Memory.read_place rfl hi rfl

theorem LoadImage.read_stack (hi : i < g.params.regions.stack.size) :
    g.dataMemory.read (stackStart + i) = g.stackBytes.getD i 0 := by
  obtain ⟨-, -, hprogram, hstack, hheap⟩ := Params.bounds_of_wf hwf
  have hzero : g.programMemory.read (stackStart + i) = 0 :=
    Memory.read_place_of_outside rfl (by omega)
  rw [dataMemory, Memory.read_place_of_outside g.heapMemory_wf (by omega),
    heapMemory, Memory.read_place_of_outside g.stackMemory_wf (by omega)]
  exact Memory.read_place g.programMemory_wf hi hzero

theorem LoadImage.read_heap (hi : i < g.params.regions.heap.size) :
    g.dataMemory.read (heapStart + i) = g.heapBytes.getD i 0 := by
  obtain ⟨-, -, hprogram, hstack, hheap⟩ := Params.bounds_of_wf hwf
  have hzero : g.stackMemory.read (heapStart + i) = 0 := by
    rw [stackMemory, Memory.read_place_of_outside g.programMemory_wf (by omega)]
    exact Memory.read_place_of_outside rfl (by omega)
  rw [dataMemory, Memory.read_place_of_outside g.heapMemory_wf (by omega)]
  exact Memory.read_place g.stackMemory_wf hi hzero

theorem LoadImage.read_input (hi : i < g.params.regions.input.size) :
    g.dataMemory.read (inputStart + i) = g.inputBytes.getD i 0 := by
  obtain ⟨-, -, hprogram, hstack, hheap⟩ := Params.bounds_of_wf hwf
  have hzero : g.heapMemory.read (inputStart + i) = 0 := by
    rw [heapMemory, Memory.read_place_of_outside g.stackMemory_wf (by omega),
      stackMemory, Memory.read_place_of_outside g.programMemory_wf (by omega)]
    exact Memory.read_place_of_outside rfl (by omega)
  exact Memory.read_place g.heapMemory_wf hi hzero

end

theorem LoadImage.launchState_reg {g : LoadImage} {q : Reg} (h₁ : q ≠ .r1) (h₁₀ : q ≠ .r10) :
    g.launchState.reg q = g.regs.get q := by
  cases q with
  | r1 => exact absurd rfl h₁
  | r10 => exact absurd rfl h₁₀
  | r0 | r2 | r3 | r4 | r5 | r6 | r7 | r8 | r9 => rfl

/-- Settles O2: the text is placed over the bytes of the regions, and lies in the program region. -/
theorem launchSetsStateAndShowsProgramText : Obligations.LaunchSetsStateAndShowsProgramText := by
  intro g s h
  obtain rfl := eq_launchState_of_launch h
  refine ⟨rfl, rfl, rfl, rfl, rfl, fun q h₁ h₁₀ => LoadImage.launchState_reg h₁ h₁₀, rfl, rfl, rfl, g.memory_wf,
    fun i w hw => g.readBytes_memory hw, fun hwf => ?_⟩
  have hbeyond {c : Nat} (hc : 0x200000000 ≤ c) : g.memory.read c = g.dataMemory.read c :=
    LoadImage.read_memory_of_stackStart_le hwf hc
  exact ⟨fun i hi hout => (g.read_memory_of_outside_text hout).trans (LoadImage.read_program hwf hi),
    fun i hi => (hbeyond (by omega)).trans (LoadImage.read_stack hwf hi),
    fun i hi => (hbeyond (by omega)).trans (LoadImage.read_heap hwf hi),
    fun i hi => (hbeyond (by omega)).trans (LoadImage.read_input hwf hi)⟩

end Sys2Proof.Machine
end

section
/-! PROOFS. The invariant of the machine: every launch establishes it and every step keeps it. -/

namespace Sys2Proof

/-! ### Which slots are `add_stk`'s -/

/-- Whatever instruction the decoder answers satisfies `P`. -/
def Yields (P : Instr → Prop) (r : Except Illegal Instr) : Prop := ∀ i, r = .ok i → P i

section
variable {P : Instr → Prop}

theorem Yields.ok {i : Instr} (h : P i) : Yields P (.ok i) := fun _ he => Except.ok.inj he ▸ h

theorem Yields.error (e : Illegal) : Yields P (.error e) := fun _ he => by cases he

theorem Yields.ite {c : Prop} [Decidable c] {r r' : Except Illegal Instr} (h : Yields P r) (h' : Yields P r') :
    Yields P (if c then r else r') := by
  split
  · exact h
  · exact h'

theorem Yields.dstOperand {c : BitVec 4} {k : Dst → Except Illegal Instr} (h : ∀ d, Yields P (k d)) :
    Yields P (dstOperand c k) := fun i he => by
  obtain ⟨d, -, hd⟩ := dstOperand_ok he
  exact h d i hd

theorem Yields.regOperand {c : BitVec 4} {k : Reg → Except Illegal Instr} (h : ∀ r, Yields P (k r)) :
    Yields P (regOperand c k) := fun i he => by
  obtain ⟨r, -, hr⟩ := regOperand_ok he
  exact h r i hr

end

/-- Every instruction that an operand format makes of operands satisfies `P`. -/
def Form.Makes (P : Instr → Prop) : Form → Prop
  | .dst mk => ∀ d, P (mk d)
  | .dstImm mk => ∀ d imm, P (mk d imm)
  | .shiftImm _ mk => ∀ d imm, P (mk d imm)
  | .dstReg mk => ∀ d r, P (mk d r)
  | .jump mk => ∀ off, P (mk off)
  | .jumpImm mk => ∀ l imm off, P (mk l imm off)
  | .jumpReg mk => ∀ l r off, P (mk l r off)
  | .load mk => ∀ d b off, P (mk d b off)
  | .storeImm mk => ∀ b off imm, P (mk b off imm)
  | .storeReg mk => ∀ b off r, P (mk b off r)
  | .wide mk => ∀ d v, P (mk d v)
  | .swap mk16 mk32 mk64 => (∀ d, P (mk16 d)) ∧ (∀ d, P (mk32 d)) ∧ ∀ d, P (mk64 d)
  | .callImm mk => ∀ sel key, P (mk sel key)
  | .callReg mk => ∀ r, P (mk r)
  | .plain i => P i

/-- What a slot decodes to by its row is made by the row's format. -/
theorem Form.yields_build {P : Instr → Prop} {f : Form} (hf : f.Makes P) (m : Isa) (w : Slot)
    (second : Option Slot) : Yields P (f.build m w second) := by
  cases f with
  | dst mk => exact .dstOperand fun d => .ok (hf d)
  | dstImm mk => exact .dstOperand fun d => .ok (hf d _)
  | shiftImm max mk => exact .dstOperand fun d => .ite (.ok (hf d _)) (.error _)
  | dstReg mk => exact .dstOperand fun d => .regOperand fun r => .ok (hf d r)
  | jump mk => exact .ok (hf _)
  | jumpImm mk => exact .regOperand fun l => .ok (hf l _ _)
  | jumpReg mk => exact .regOperand fun l => .regOperand fun r => .ok (hf l r _)
  | load mk => exact .dstOperand fun d => .regOperand fun b => .ok (hf d b _)
  | storeImm mk => exact .regOperand fun b => .ok (hf b _ _)
  | storeReg mk => exact .regOperand fun b => .regOperand fun r => .ok (hf b _ r)
  | wide mk =>
    cases second with
    | none => exact .dstOperand fun d => .error _
    | some w2 => exact .dstOperand fun d => .ite (.ok (hf d _)) (.error _)
  | swap mk16 mk32 mk64 =>
    obtain ⟨h16, h32, h64⟩ := hf
    exact .dstOperand fun d => .ite (.ok (h16 d)) (.ite (.ok (h32 d)) (.ite (.ok (h64 d)) (.error _)))
  | callImm mk => exact .ok (hf _ _)
  | callReg mk =>
    simp only [Form.build, buildCallReg]
    cases m.version with
    | v2 => exact .regOperand fun r => .ok (hf r)
    | v1 => exact .ite (.regOperand fun r => .ok (hf r)) (.error _)
  | plain i => exact .ok hf

/-- No row of the opcode map is `add_stk`'s, which shares the byte of `add64_imm` (R71, R320). -/
theorem opcodeTable_makes_no_addStk (imm : Imm) :
    ∀ row ∈ opcodeTable, row.form.Makes fun i => i ≠ .addStk imm := by
  simp only [opcodeTable, List.forall_mem_append, alu32Rows, alu64Rows, pqrRows, jumpRows, memoryRows, swapRows,
    callRows, List.forall_mem_cons, Form.Makes, ne_eq, reduceCtorEq, not_false_eq_true, implies_true, and_self,
    List.not_mem_nil, false_implies]

/-- `add_stk` decodes only where dynamic frames are on (R320). -/
theorem dynamicStackFrames_of_decode_addStk {m : Isa} {w : Slot} {second : Option Slot} {imm : Imm}
    (h : decode m w second = .ok (.addStk imm)) : m.dynamicStackFrames = true := by
  obtain ⟨-, hadd, -⟩ | ⟨row, hrow, -, hbuild⟩ := decode_ok h
  · simp only [Isa.isAddStk, Bool.and_eq_true] at hadd
    obtain ⟨⟨-, hdyn⟩, -⟩ := hadd
    exact hdyn
  · obtain ⟨hmem, -⟩ := findRow_some hrow
    exact absurd rfl (Form.yields_build (opcodeTable_makes_no_addStk imm row hmem) m w second _ hbuild)

end Sys2Proof

namespace Sys2Proof.Machine

/-! ### Launch -/

theorem LoadImage.memory_mapped {g : LoadImage} (hwf : g.params.wf = true) :
    ∀ c ∈ g.memory, mapped g.params.regions c.1 = true := by
  obtain ⟨hlo, hhi, -, -, -⟩ := Params.bounds_of_wf hwf
  have hprogram : ∀ c ∈ g.programMemory, mapped g.params.regions c.1 = true :=
    Memory.place_mapped (by simp [regionList]) fun c hc => by cases hc
  have hstack : ∀ c ∈ g.stackMemory, mapped g.params.regions c.1 = true :=
    Memory.place_mapped (by simp [regionList]) hprogram
  have hheap : ∀ c ∈ g.heapMemory, mapped g.params.regions c.1 = true :=
    Memory.place_mapped (by simp [regionList]) hstack
  have hdata : ∀ c ∈ g.dataMemory, mapped g.params.regions c.1 = true :=
    Memory.place_mapped (by simp [regionList]) hheap
  refine Memory.writeBytes_mapped hdata fun c hc₁ hc₂ => ?_
  rw [programBytes_length] at hc₂
  exact mapped_iff.mpr ⟨(programStart, g.params.regions.program), by simp [regionList],
    hlo.trans hc₁, hc₂.trans_le hhi⟩

/-- Settles O57: nothing is called yet, and `sp` and `r10` are both `INIT_SP`. -/
theorem everyLaunchEstablishesTheInvariant : Obligations.EveryLaunchEstablishesTheInvariant := by
  intro g s hwf h
  obtain rfl := eq_launchState_of_launch h
  have hmem : g.launchState.memInv := ⟨g.memory_wf, LoadImage.memory_mapped hwf⟩
  have hdepth : g.launchState.depthInv := Nat.zero_le _
  have hframes : g.launchState.fixedFrames := fun _ => ⟨rfl, trivial⟩
  have hret : g.launchState.retInv := fun f hf => by cases hf
  exact ⟨hmem, hdepth, hframes, hret⟩

/-- Settles O55: `State.reset` is the launch state of the empty image. -/
theorem invariantHoldsAtReset : Obligations.InvariantHoldsAtReset :=
  everyLaunchEstablishesTheInvariant _ _ rfl resetIsTheLaunchStateOfTheEmptyImage.1

/-! ### What an instruction does to each part of the invariant -/

section
variable {i : Instr} {s t : State}

/-- Stores are of permitted bytes and a host's writes of existing ones (R40, R43, log 9). -/
theorem Effect.memInv (h : Effect i s t) (hs : s.memInv) : t.memInv := by
  obtain ⟨hwf, hmapped⟩ := hs
  cases h with
  | stores base off sz v hi hp =>
    refine ⟨Memory.writeBytes_wf hwf _ _, Memory.writeBytes_mapped hmapped fun c hlo hhi => ?_⟩
    exact mapped_of_permits hp hlo (by rwa [wordBytes_length] at hhi)
  | syscall key r0 ws hi ha =>
    exact ⟨hostWrites_wf _ hwf ws, fun c hc => (mem_hostWrites _ hc).elim id (hmapped c)⟩
  | fault | writes | jumps | calls | returns | ends | addStk => exact ⟨hwf, hmapped⟩

/-- A call is made below the limit only (R31, R291). -/
theorem Effect.depthInv (h : Effect i s t) (hs : s.depthInv) : t.depthInv := by
  cases h with
  | calls n hi hd => exact hd
  | returns f rest hi hf =>
    have hlen : s.frames.length ≤ s.params.maxCallDepth := hs
    rw [hf, List.length_cons] at hlen
    exact Nat.le_of_succ_le hlen
  | fault | writes | jumps | stores | syscall | ends | addStk => exact hs

/-- A call moves `sp` and `r10` up a stride and saves the old `r10`; a return undoes it (R291, R292). -/
theorem Effect.fixedFrames (h : Effect i s t) (hs : s.fixedFrames)
    (hadd : ∀ imm, i = .addStk imm → s.params.isa.dynamicStackFrames = true) : t.fixedFrames := by
  intro hfixed
  replace hfixed : s.params.isa.dynamicStackFrames = false := by rwa [h.params_eq] at hfixed
  obtain ⟨hsp, hchain⟩ := hs hfixed
  cases h with
  | writes d v n =>
    have hfp : (s.setReg d.reg v).reg .r10 = s.reg .r10 := State.setReg_reg_ne s v (dst_reg_ne_fp d).symm
    exact ⟨hsp.trans hfp.symm, hfp.symm ▸ hchain⟩
  | calls n hi hd =>
    have hcallee : s.calleeSp - s.params.frameStride = s.reg .r10 := by
      rw [State.calleeSp_of_fixed hfixed, hsp]; exact BitVec.add_sub_cancel _ _
    have hfp : (s.regs.set .r10 s.calleeSp).get .r10 = s.calleeSp := RegFile.get_set_self ..
    exact ⟨hfp.symm, hcallee.symm, hchain⟩
  | returns f rest hi hf =>
    rw [hf] at hchain
    obtain ⟨hsaved, hrest⟩ := hchain
    refine ⟨?_, hrest⟩
    show s.callerSp = f.fp
    rw [State.callerSp_of_fixed hfixed, hsp, hsaved]
  | addStk imm hi => exact absurd (hadd imm hi) (by simp [hfixed])
  | fault | jumps | stores | syscall | ends => exact ⟨hsp, hchain⟩

/-- A call at a slot of the program saves the index of the next (R291). -/
theorem Effect.retInv (h : Effect i s t) (hpc : s.pcInProgram) (hs : s.retInv) : t.retInv := by
  cases h with
  | calls n hi hd =>
    obtain ⟨hlo, hhi⟩ := hpc
    have hcall : 0 < s.callFrame.ret ∧ s.callFrame.ret ≤ s.nSlots := ⟨Int.lt_add_one_of_le hlo, hhi⟩
    exact List.forall_mem_cons.mpr ⟨hcall, hs⟩
  | returns f rest hi hf =>
    intro f' hf'
    exact hs f' (hf ▸ List.mem_cons_of_mem f hf')
  | fault | writes | jumps | stores | syscall | ends | addStk => exact hs

/-- An instruction that stands in the program and was decoded under the instruction set of the run keeps the
invariant. -/
theorem Effect.inv (h : Effect i s t) (hpc : s.pcInProgram)
    (hadd : ∀ imm, i = .addStk imm → s.params.isa.dynamicStackFrames = true) (hs : s.Inv) : t.Inv := by
  obtain ⟨hmem, hdepth, hframes, hret⟩ := hs
  exact ⟨h.memInv hmem, h.depthInv hdepth, h.fixedFrames hframes hadd, h.retInv hpc hret⟩

/-- The invariant does not speak of the meter. -/
theorem State.Inv.tick (hs : s.Inv) : s.tick.Inv := hs

/-- The invariant does not speak of the status. -/
theorem State.Inv.faultWith (f : RunFault) (hs : s.Inv) : (s.faultWith f).Inv := hs

end

/-- Settles O56: a step counts itself, and then faults or executes what it fetched and decoded. -/
theorem stepKeepsTheInvariant : Obligations.StepKeepsTheInvariant := by
  intro s t hs h
  obtain ⟨-, ⟨-, rfl⟩ | ⟨-, -, rfl⟩ | ⟨-, f, i, hf, hd, hexec⟩ | ⟨-, f, e, -, -, rfl⟩⟩ := step_next h
  · exact hs.faultWith _
  · exact hs.tick.faultWith _
  · refine (exec_next hexec).inv (State.pcInProgram_of_fetch hf) (fun imm hi => ?_) hs.tick
    subst hi
    exact dynamicStackFrames_of_decode_addStk hd
  · exact hs.tick.faultWith _

end Sys2Proof.Machine
end

section
/-! PROOFS. Loads and stores (20_memory R41 to R49, 43_load_store): the access check in the words of R43, what
`MemRead` and `MemWrite` answer, the twelve instructions built on them, and which bytes an instruction can change. -/

namespace Sys2Proof.Machine

/-! ### The access check -/

theorem permAllows_iff {p : Perm} {k : Access} :
    permAllows p k = true ↔ (k = .load ∧ (p = .r ∨ p = .rw)) ∨ (k = .store ∧ p = .rw) := by
  cases k with
  | load => cases p <;> simp [permAllows]
  | store => cases p <;> simp [permAllows]

theorem regionHolds_iff {start : Nat} {r : Region} {a n : Nat} :
    regionHolds start r a n = true ↔ start ≤ a ∧ a + n ≤ start + r.size := by
  simp [regionHolds]

theorem permits_iff {g : Regions} {k : Access} {a n : Nat} :
    permits g k a n = true ↔
      ∃ start r, (start, r) ∈ regionList g ∧ start ≤ a ∧ a + n ≤ start + r.size ∧ permAllows r.perm k = true := by
  simp only [permits, List.any_eq_true, Bool.and_eq_true, regionHolds_iff, Prod.exists, and_assoc]

/-- The four regions at the addresses R41 fixes. -/
theorem mem_regionList_iff {g : Regions} {start : Nat} {r : Region} :
    (start, r) ∈ regionList g ↔
      (start = 0x100000000 ∧ r = g.program) ∨ (start = 0x200000000 ∧ r = g.stack)
        ∨ (start = 0x300000000 ∧ r = g.heap) ∨ (start = 0x400000000 ∧ r = g.input) := by
  simp [regionList, programStart, stackStart, heapStart, inputStart]

/-- Settles O34: region by region, and then the permission. -/
theorem accessCheckIsRegionContainment : Obligations.AccessCheckIsRegionContainment := by
  intro g k a n
  simp only [permits_iff, mem_regionList_iff, permAllows_iff, Permitted]

/-- One region holds every part of what it holds (R43). -/
theorem Permitted.part {g : Regions} {k : Access} {a n b m : Nat} (h : Permitted g k a n) (hlo : a ≤ b)
    (hhi : b + m ≤ a + n) : Permitted g k b m := by
  obtain ⟨start, r, hr, hstart, hend, hperm⟩ := h
  exact ⟨start, r, hr, hstart.trans hlo, hhi.trans hend, hperm⟩

section
variable {s : State} {k : Access} {a : Word} {sz : Width}

theorem State.misaligned_eq_false_iff : s.misaligned a sz = false ↔ PolicyAllows s a.toNat sz.bytes := by
  simp [State.misaligned, PolicyAllows]

/-- The check passes exactly where the policy and the regions let the access through (R243). -/
theorem State.checkAccess_eq_ok_iff :
    s.checkAccess k a sz = .ok () ↔
      PolicyAllows s a.toNat sz.bytes ∧ Permitted s.params.regions k a.toNat sz.bytes := by
  rw [← State.misaligned_eq_false_iff, ← accessCheckIsRegionContainment]
  refine ⟨State.checkAccess_ok, fun ⟨haligned, hpermits⟩ => ?_⟩
  simp [State.checkAccess, haligned, hpermits]

theorem State.checkAccess_of_not_allowed
    (h : ¬(PolicyAllows s a.toNat sz.bytes ∧ Permitted s.params.regions k a.toNat sz.bytes)) :
    s.checkAccess k a sz = .error (.accessViolation s.pc a sz.bytes k) := by
  cases hc : s.checkAccess k a sz with
  | ok u => exact absurd (State.checkAccess_eq_ok_iff.mp hc) h
  | error f => rw [State.checkAccess_error hc]

end

/-! ### The bytes of a word -/

/-! A byte put below a word is its byte 0, and the bytes of the word move up by one. -/

theorem byteOf_zero_shiftLeft_or (v : Word) (b : Byte) : byteOf ((v <<< 8) ||| b.setWidth 64) 0 = b := by
  refine BitVec.eq_of_getLsbD_eq fun j hj => ?_
  have hword : j < 64 := by omega
  simp [byteOf, hj, hword]

theorem byteOf_succ_shiftLeft_or (v : Word) (b : Byte) {i : Nat} (hi : i + 1 < 8) :
    byteOf ((v <<< 8) ||| b.setWidth 64) (i + 1) = byteOf v i := by
  refine BitVec.eq_of_getLsbD_eq fun j hj => ?_
  have hword : 8 * (i + 1) + j < 64 := by omega
  have habove : ¬8 * (i + 1) + j < 8 := by omega
  have hb : b.getLsbD (8 * (i + 1) + j) = false := BitVec.getLsbD_of_ge _ _ (by omega)
  have hdown : 8 * (i + 1) + j - 8 = 8 * i + j := by omega
  simp only [byteOf, BitVec.getLsbD_extractLsb', BitVec.getLsbD_or, BitVec.getLsbD_shiftLeft,
    BitVec.getLsbD_setWidth, hj, hword, habove, hb, hdown, decide_true, decide_false, Bool.not_false,
    Bool.and_false, Bool.true_and, Bool.or_false]

/-- Byte `i` of a word made of bytes is the `i`-th of them, and 0 above the last (R46, R47, R241). -/
theorem byteOf_bytesToWord (bs : List Byte) {i : Nat} (hi : i < 8) : byteOf (bytesToWord bs) i = bs.getD i 0 := by
  induction bs generalizing i with
  | nil => simp [bytesToWord, byteOf]
  | cons b bs ih =>
    cases i with
    | zero => exact byteOf_zero_shiftLeft_or _ b
    | succ i => exact (byteOf_succ_shiftLeft_or _ b hi).trans (ih (by omega))

theorem Width.bytes_le (sz : Width) : sz.bytes ≤ 8 := by cases sz <;> decide

/-! ### `MemRead` and `MemWrite` -/

/-- What a load of `n` bytes at `a` answers: the bytes that memory reads there, and zeros above (R46, R47). -/
def Loads (m : Memory) (a n : Nat) (v : Word) : Prop :=
  (∀ i, i < n → byteOf v i = m.read (a + i)) ∧ ∀ i, n ≤ i → i < 8 → byteOf v i = 0

theorem loads_bytesToWord_readBytes (m : Memory) (a : Nat) {n : Nat} (hn : n ≤ 8) :
    Loads m a n (bytesToWord (m.readBytes a n)) := by
  refine ⟨fun i hi => ?_, fun i hi hi8 => ?_⟩
  · rw [byteOf_bytesToWord _ (by omega), List.getD_eq_getElem _ _ (by simpa using hi), Memory.readBytes_getElem]
  · rw [byteOf_bytesToWord _ hi8, List.getD_eq_default _ _ (by simpa using hi)]

section
variable {s : State} {a : Word} {sz : Width}

theorem State.memRead_of_allowed (hpolicy : PolicyAllows s a.toNat sz.bytes)
    (hperm : Permitted s.params.regions .load a.toNat sz.bytes) :
    ∃ v, s.memRead a sz = .ok v ∧ Loads s.mem a.toNat sz.bytes v :=
  ⟨bytesToWord (s.mem.readBytes a.toNat sz.bytes),
    by rw [State.memRead, State.checkAccess_eq_ok_iff.mpr ⟨hpolicy, hperm⟩],
    loads_bytesToWord_readBytes s.mem a.toNat sz.bytes_le⟩

theorem State.memRead_of_not_allowed
    (h : ¬(PolicyAllows s a.toNat sz.bytes ∧ Permitted s.params.regions .load a.toNat sz.bytes)) :
    s.memRead a sz = .error (.accessViolation s.pc a sz.bytes .load) := by
  rw [State.memRead, State.checkAccess_of_not_allowed h]

theorem State.memWrite_of_allowed (v : Word) (hpolicy : PolicyAllows s a.toNat sz.bytes)
    (hperm : Permitted s.params.regions .store a.toNat sz.bytes) :
    s.memWrite a sz v = .ok { s with mem := s.mem.writeBytes a.toNat (wordBytes sz.bytes v) } := by
  rw [State.memWrite, State.checkAccess_eq_ok_iff.mpr ⟨hpolicy, hperm⟩]

theorem State.memWrite_of_not_allowed (v : Word)
    (h : ¬(PolicyAllows s a.toNat sz.bytes ∧ Permitted s.params.regions .store a.toNat sz.bytes)) :
    s.memWrite a sz v = .error (.accessViolation s.pc a sz.bytes .store) := by
  rw [State.memWrite, State.checkAccess_of_not_allowed h]

end

/-- Settles O35. -/
theorem memReadResult : Obligations.MemReadResult := fun _ _ _ =>
  ⟨State.memRead_of_not_allowed, State.memRead_of_allowed⟩

/-! Memory after the low `n` bytes of `v` were written at `a` (R48). -/

section
variable {m : Memory} (hm : m.wf = true) (a n : Nat) (v : Word)
include hm

theorem Memory.read_writeBytes_wordBytes {i : Nat} (hi : i < n) :
    (m.writeBytes a (wordBytes n v)).read (a + i) = byteOf v i := by
  have hlen : i < (wordBytes n v).length := by rwa [wordBytes_length]
  exact (Memory.read_writeBytes_of_inside hm a hlen).trans (wordBytes_getElem n v i hlen)

theorem Memory.read_writeBytes_wordBytes_of_outside {b : Nat} (hb : b < a ∨ a + n ≤ b) :
    (m.writeBytes a (wordBytes n v)).read b = m.read b :=
  Memory.read_writeBytes_of_outside hm (by rwa [wordBytes_length])

end

/-- Settles O36. -/
theorem memWriteResult : Obligations.MemWriteResult := by
  intro s a sz v hwf
  refine ⟨State.memWrite_of_not_allowed v, fun hpolicy hperm => ?_⟩
  exact ⟨_, State.memWrite_of_allowed v hpolicy hperm, Memory.writeBytes_wf hwf _ _,
    fun _ => Memory.read_writeBytes_wordBytes hwf _ _ v,
    fun _ => Memory.read_writeBytes_wordBytes_of_outside hwf _ _ v⟩

/-! ### Loads and stores of any width -/

/-- The effective address is the base and the signed offset, modulo 2^64 (R64, R240). -/
theorem State.address_toNat (s : State) (base : Reg) (off : Offset) :
    ((s.address base off).toNat : Int) = ((s.reg base).toNat + off.toInt) % 2 ^ 64 := by
  have hoff : (off.signExtend 32).toInt = off.toInt := BitVec.toInt_signExtend_of_le (by decide)
  have himm : sextImm (off.signExtend 32) = off.signExtend 64 := BitVec.eq_of_toInt_eq (by
    rw [sextImm, BitVec.toInt_signExtend_of_le (by decide), hoff, BitVec.toInt_signExtend_of_le (by decide)])
  rw [State.address, ← himm, toNat_add_sextImm, hoff]

section
variable {s : State} {sz : Width} {base : Reg} {off : Offset}

theorem State.load_writesOnly (d : Dst) (hpolicy : PolicyAllows s (s.address base off).toNat sz.bytes)
    (hperm : Permitted s.params.regions .load (s.address base off).toNat sz.bytes) :
    WritesOnly s d (Loads s.mem (s.address base off).toNat sz.bytes) (s.load sz d base off) := by
  obtain ⟨v, hread, hv⟩ := State.memRead_of_allowed hpolicy hperm
  refine ⟨s.writeDst d v, by rw [State.load, hread]; rfl, ?_, rfl, fun q hq => State.writeDst_reg_ne s v hq,
    fun _ => rfl, rfl, rfl, rfl, rfl, rfl, rfl⟩
  rwa [State.writeDst_reg_self]

theorem State.load_faults (d : Dst)
    (h : ¬(PolicyAllows s (s.address base off).toNat sz.bytes
      ∧ Permitted s.params.regions .load (s.address base off).toNat sz.bytes)) :
    Faults s (.accessViolation s.pc (s.address base off) sz.bytes .load) (s.load sz d base off) := by
  rw [State.load, State.memRead_of_not_allowed h]
  rfl

theorem State.store_storesOnly (hwf : s.mem.wf = true) (v : Word)
    (hpolicy : PolicyAllows s (s.address base off).toNat sz.bytes)
    (hperm : Permitted s.params.regions .store (s.address base off).toNat sz.bytes) :
    StoresOnly s (s.address base off).toNat sz.bytes v (s.store sz base off v) := by
  refine ⟨{ s with mem := s.mem.writeBytes (s.address base off).toNat (wordBytes sz.bytes v), pc := s.pc + 1 },
    ?_, fun _ => Memory.read_writeBytes_wordBytes hwf _ _ v, rfl,
    fun _ => Memory.read_writeBytes_wordBytes_of_outside hwf _ _ v, fun _ => rfl, rfl, rfl, rfl, rfl, rfl, rfl⟩
  rw [State.store, State.memWrite_of_allowed v hpolicy hperm]
  rfl

theorem State.store_faults (v : Word)
    (h : ¬(PolicyAllows s (s.address base off).toNat sz.bytes
      ∧ Permitted s.params.regions .store (s.address base off).toNat sz.bytes)) :
    Faults s (.accessViolation s.pc (s.address base off) sz.bytes .store) (s.store sz base off v) := by
  rw [State.store, State.memWrite_of_not_allowed v h]
  rfl

end

/-! ### The twelve instructions, each with the number of bytes it accesses -/

/-- R244 to R247. -/
def loadForms (d : Dst) (base : Reg) (off : Offset) : List (Instr × Nat) :=
  [(.ldxb d base off, 1), (.ldxh d base off, 2), (.ldxw d base off, 4), (.ldxdw d base off, 8)]

/-- R252 to R255. -/
def storeRegForms (base : Reg) (off : Offset) (r : Reg) : List (Instr × Nat) :=
  [(.stbReg base off r, 1), (.sthReg base off r, 2), (.stwReg base off r, 4), (.stdwReg base off r, 8)]

/-- R248 to R251. -/
def storeImmForms (base : Reg) (off : Offset) (imm : Imm) : List (Instr × Nat) :=
  [(.stbImm base off imm, 1), (.sthImm base off imm, 2), (.stwImm base off imm, 4), (.stdwImm base off imm, 8)]

section
variable {p : Instr × Nat} {base : Reg} {off : Offset} (s : State)

theorem exec_of_mem_loadForms {d : Dst} (hp : p ∈ loadForms d base off) :
    ∃ sz : Width, p.2 = sz.bytes ∧ exec p.1 s = s.load sz d base off := by
  simp only [loadForms, List.mem_cons, List.not_mem_nil, or_false] at hp
  rcases hp with rfl | rfl | rfl | rfl
  exacts [⟨.b, rfl, rfl⟩, ⟨.h, rfl, rfl⟩, ⟨.w, rfl, rfl⟩, ⟨.dw, rfl, rfl⟩]

theorem exec_of_mem_storeRegForms {r : Reg} (hp : p ∈ storeRegForms base off r) :
    ∃ sz : Width, p.2 = sz.bytes ∧ exec p.1 s = s.store sz base off (s.reg r) := by
  simp only [storeRegForms, List.mem_cons, List.not_mem_nil, or_false] at hp
  rcases hp with rfl | rfl | rfl | rfl
  exacts [⟨.b, rfl, rfl⟩, ⟨.h, rfl, rfl⟩, ⟨.w, rfl, rfl⟩, ⟨.dw, rfl, rfl⟩]

/-- An immediate store is that of the sign-extended immediate (R242). -/
theorem exec_of_mem_storeImmForms {imm : Imm} (hp : p ∈ storeImmForms base off imm) :
    ∃ sz : Width, p.2 = sz.bytes ∧ exec p.1 s = s.store sz base off (sextImm imm) := by
  simp only [storeImmForms, List.mem_cons, List.not_mem_nil, or_false] at hp
  rcases hp with rfl | rfl | rfl | rfl
  exacts [⟨.b, rfl, rfl⟩, ⟨.h, rfl, rfl⟩, ⟨.w, rfl, rfl⟩, ⟨.dw, rfl, rfl⟩]

/-- A register store and an immediate store differ in the value stored. -/
theorem exec_of_mem_storeForms {r : Reg} {imm : Imm}
    (hp : p ∈ storeRegForms base off r ++ storeImmForms base off imm) :
    ∃ (sz : Width) (v : Word), p.2 = sz.bytes ∧ exec p.1 s = s.store sz base off v := by
  obtain hp | hp := List.mem_append.mp hp
  · obtain ⟨sz, hn, hexec⟩ := exec_of_mem_storeRegForms s hp
    exact ⟨sz, s.reg r, hn, hexec⟩
  · obtain ⟨sz, hn, hexec⟩ := exec_of_mem_storeImmForms s hp
    exact ⟨sz, sextImm imm, hn, hexec⟩

end

/-- Settles O38. -/
theorem loadResults : Obligations.LoadResults := by
  intro s d base off ea
  refine ⟨s.address_toNat base off, fun p hp => ?_⟩
  obtain ⟨sz, hn, hexec⟩ := exec_of_mem_loadForms s hp
  rw [hn, hexec]
  exact State.load_writesOnly d

/-- Settles O39: the value of an immediate store is the sign-extended immediate (R242). -/
theorem storeResults : Obligations.StoreResults := by
  intro s base r off imm hwf ea
  refine ⟨s.address_toNat base off, fun p hp => ?_, fun p hp hpolicy hperm => ⟨sextImm imm, ?_, ?_⟩⟩
  · obtain ⟨sz, hn, hexec⟩ := exec_of_mem_storeRegForms s hp
    rw [hn, hexec]
    exact State.store_storesOnly hwf (s.reg r)
  · exact BitVec.toInt_signExtend_of_le (by decide)
  · obtain ⟨sz, hn, hexec⟩ := exec_of_mem_storeImmForms s hp
    rw [hn] at hpolicy hperm
    rw [hn, hexec]
    exact State.store_storesOnly hwf (sextImm imm) hpolicy hperm

/-- Settles O40: the eight stores are the register forms and then the immediate forms. -/
theorem accessViolationFaults : Obligations.AccessViolationFaults := by
  intro s d base r off imm ea
  constructor
  · intro p hp
    obtain ⟨sz, hn, hexec⟩ := exec_of_mem_loadForms s hp
    rw [hn, hexec]
    exact State.load_faults d
  · intro p hp
    obtain ⟨sz, v, hn, hexec⟩ := exec_of_mem_storeForms (r := r) (imm := imm) s hp
    rw [hn, hexec]
    exact State.store_faults v

/-! ### Which bytes an instruction can change -/

/-- Settles O42: of the nine effects a store alone writes memory and is no syscall; it is permitted all the bytes
it writes. -/
theorem onlyWritableBytesChange : Obligations.OnlyWritableBytesChange := by
  intro i s t a hwf h hsys hread
  cases exec_next h with
  | stores base off sz v hi hp =>
    have hperm : Permitted s.params.regions .store (s.address base off).toNat sz.bytes :=
      (accessCheckIsRegionContainment ..).mp hp
    by_cases hin : (s.address base off).toNat ≤ a ∧ a < (s.address base off).toNat + sz.bytes
    · obtain ⟨hlo, hhi⟩ := hin
      exact hperm.part hlo hhi
    · exact absurd (Memory.read_writeBytes_wordBytes_of_outside hwf _ _ v (by omega)) hread
  | syscall key r0 ws hi ha => exact absurd hi (hsys key)
  | fault | writes | jumps | calls | returns | ends | addStk => exact absurd rfl hread

end Sys2Proof.Machine
end

section
/-! PROOFS. The encoding (30_encoding): the decoder reads back what the encoder writes, nothing illegal decodes,
the fields that take part in decoding, the opcode bytes, and the bytes of a slot. The operand formats (`Form`) carry
the case analysis; the opcode map enters through one law about its rows. -/

namespace Sys2Proof
open Machine

/-! ### Which slots are `add_stk`'s (R320) -/

/-- The slot is `add_stk`'s, which the opcode map does not tell from `add64_imm`. -/
def IsAddStkSlot (m : Isa) (w : Slot) : Prop := opcodeField w = addStkOpcode ∧ m.isAddStk (dstField w) = true

theorem isAddStk_iff {m : Isa} {c : BitVec 4} :
    m.isAddStk c = true ↔ m.version = .v2 ∧ m.dynamicStackFrames = true ∧ c = m.addStkDst := by
  simp [Isa.isAddStk, and_assoc]

theorem decode_of_isAddStkSlot {m : Isa} {w : Slot} (hadd : IsAddStkSlot m w) (second : Option Slot) :
    decode m w second = .ok (.addStk (immField w)) := if_pos hadd

section
variable {m : Isa} {w : Slot} (hadd : ¬IsAddStkSlot m w) (second : Option Slot)
include hadd

theorem decode_of_findRow_eq_none (hrow : findRow (opcodeField w) opcodeTable = none) :
    decode m w second = .error .unassignedOpcode := (if_neg hadd).trans (by rw [hrow])

theorem decode_of_findRow_eq_some {row : OpcodeRow} (hrow : findRow (opcodeField w) opcodeTable = some row) :
    decode m w second = if row.avail.inIsa m = true then row.form.build m w second else .error .notInVersion :=
  (if_neg hadd).trans (by rw [hrow])

end

/-! ### Finding the row of an opcode byte -/

theorem findRow_eq_none {op : BitVec 8} {l : List OpcodeRow} : findRow op l = none ↔ ∀ r ∈ l, r.opcode ≠ op := by
  induction l with
  | nil => simp [findRow]
  | cons r l ih => by_cases h : r.opcode = op <;> simp [findRow, h, ih]

theorem findRow_of_mem {l : List OpcodeRow} (hl : (l.map (·.opcode)).Nodup) {row : OpcodeRow} (hrow : row ∈ l) :
    findRow row.opcode l = some row := by
  induction l with
  | nil => cases hrow
  | cons r l ih =>
    rw [List.map_cons, List.nodup_cons] at hl
    obtain ⟨hr, hl⟩ := hl
    obtain rfl | hmem := List.mem_cons.mp hrow
    · simp [findRow]
    · have hne : r.opcode ≠ row.opcode := fun he => hr (he ▸ List.mem_map_of_mem hmem)
      simp [findRow, hne, ih hl hmem]

theorem opcodeTable_nodup : (opcodeTable.map (·.opcode)).Nodup := by decide

theorem decode_of_mem {m : Isa} {w : Slot} {row : OpcodeRow} (hrow : row ∈ opcodeTable)
    (hop : opcodeField w = row.opcode) (hav : row.avail.inIsa m = true) (hadd : ¬IsAddStkSlot m w)
    (second : Option Slot) : decode m w second = row.form.build m w second := by
  rw [decode_of_findRow_eq_some hadd second (hop ▸ findRow_of_mem opcodeTable_nodup hrow), if_pos hav]

/-! ### What each operand format writes -/

/-- `f.Writes m op i h tail`: the format `f` under the opcode byte `op` makes `i` of legal operands (R74, R75), and
`i` is written as the slot `h`, followed by `tail` (R61, R69). -/
inductive Form.Writes (m : Isa) (op : BitVec 8) : Form → Instr → Slot → List Slot → Prop
  | dst {mk} (d) : Writes m op (.dst mk) (mk d) (mkSlot op d.code 0 0 0) []
  | dstImm {mk} (d imm) : Writes m op (.dstImm mk) (mk d imm) (mkSlot op d.code 0 0 imm) []
  | shiftImm {max mk} (d) {imm} (h : imm.toNat ≤ max) :
      Writes m op (.shiftImm max mk) (mk d imm) (mkSlot op d.code 0 0 imm) []
  | dstReg {mk} (d r) : Writes m op (.dstReg mk) (mk d r) (mkSlot op d.code r.code 0 0) []
  | jump {mk} (off) : Writes m op (.jump mk) (mk off) (mkSlot op 0 0 off 0) []
  | jumpImm {mk} (l imm off) : Writes m op (.jumpImm mk) (mk l imm off) (mkSlot op l.code 0 off imm) []
  | jumpReg {mk} (l r off) : Writes m op (.jumpReg mk) (mk l r off) (mkSlot op l.code r.code off 0) []
  | load {mk} (d b off) : Writes m op (.load mk) (mk d b off) (mkSlot op d.code b.code off 0) []
  | storeImm {mk} (b off imm) : Writes m op (.storeImm mk) (mk b off imm) (mkSlot op b.code 0 off imm) []
  | storeReg {mk} (b off r) : Writes m op (.storeReg mk) (mk b off r) (mkSlot op b.code r.code off 0) []
  | wide {mk} (d v) : Writes m op (.wide mk) (mk d v) (mkSlot op d.code 0 0 (v.extractLsb' 0 32))
      [mkSlot 0 0 0 0 (v.extractLsb' 32 32)]
  | swap16 {mk16 mk32 mk64} (d) : Writes m op (.swap mk16 mk32 mk64) (mk16 d) (mkSlot op d.code 0 0 16) []
  | swap32 {mk16 mk32 mk64} (d) : Writes m op (.swap mk16 mk32 mk64) (mk32 d) (mkSlot op d.code 0 0 32) []
  | swap64 {mk16 mk32 mk64} (d) : Writes m op (.swap mk16 mk32 mk64) (mk64 d) (mkSlot op d.code 0 0 64) []
  | callImm {mk} (sel key) : Writes m op (.callImm mk) (mk sel key) (mkSlot op 0 sel 0 key) []
  | callRegV2 {mk} (r) (hv : m.version = .v2) : Writes m op (.callReg mk) (mk r) (mkSlot op 0 r.code 0 0) []
  | callRegV1 {mk r} (hv : m.version = .v1) (hr : r ≠ .r10) :
      Writes m op (.callReg mk) (mk r) (mkSlot op 0 0 0 (r.code.setWidth 32)) []
  | plain {i} : Writes m op (.plain i) i (mkSlot op 0 0 0 0) []

/-! ### The law of the opcode map -/

/-- A division or remainder by an immediate 0, which is not well-formed and yet decodes (log 7). -/
def Instr.DividesByZero (i : Instr) : Prop :=
  ∃ d, i ∈ [Instr.div32Imm d 0, .div64Imm d 0, .mod32Imm d 0, .mod64Imm d 0, .sdiv32Imm d 0, .sdiv64Imm d 0,
    .srem32Imm d 0, .srem64Imm d 0]

/-- What a row of the opcode map says of an instruction it writes as `h` and `tail`: the encoder writes it so, it is
available where the row is unless the slot is `add_stk`'s, and its immediate is legal but for log 7. -/
structure OpcodeRow.Describes (m : Isa) (row : OpcodeRow) (i : Instr) (h : Slot) (tail : List Slot) : Prop where
  encode_eq : encode m i = h :: tail
  available_iff : i.availableIn m = true ↔ row.avail.inIsa m = true ∧ ¬IsAddStkSlot m h
  wf_or : i.wf = true ∨ i.DividesByZero

/-- Row by row the map agrees with the encoder, with the availability (R73) and with the immediates of R75: of each
row's format only the ways to write its own instruction remain, and each is an equation of the model's tables. -/
theorem opcodeTable_describes (m : Isa) :
    ∀ row ∈ opcodeTable, ∀ i h tail, row.form.Writes m row.opcode i h tail → row.Describes m i h tail := by
  simp only [opcodeTable, List.forall_mem_append, alu32Rows, alu64Rows, pqrRows, jumpRows, memoryRows, swapRows,
    callRows, List.forall_mem_cons, List.not_mem_nil, false_implies, implies_true, and_true]
  and_intros
  all_goals rintro i h tail ⟨⟩
  all_goals constructor
  all_goals simp [*, encode, Instr.availableIn, Avail.inIsa, IsAddStkSlot, mkSlot_opcode, mkSlot_dst, addStkOpcode,
    Instr.wf, Instr.DividesByZero, Decidable.not_or_self]

/-- A row of the opcode map writes the instruction as the encoder does. -/
def Instr.HasRow (m : Isa) (i : Instr) : Prop :=
  ∃ row ∈ opcodeTable, ∃ h tail, encode m i = h :: tail ∧ row.form.Writes m row.opcode i h tail

theorem Instr.HasRow.of_findRow {m : Isa} {i : Instr} {op : BitVec 8} {d s : BitVec 4} {off : Offset} {imm : Imm}
    {tail : List Slot} {row : OpcodeRow} (henc : encode m i = mkSlot op d s off imm :: tail)
    (hrow : findRow op opcodeTable = some row) (hw : row.form.Writes m op i (mkSlot op d s off imm) tail) :
    i.HasRow m := by
  obtain ⟨hmem, rfl⟩ := findRow_some hrow
  exact ⟨row, hmem, _, _, henc, hw⟩

/-- Every legal instruction but `add_stk` has a row, found by the opcode byte the encoder writes. -/
theorem Instr.hasRow {m : Isa} {i : Instr} (hav : i.availableIn m = true) (hwf : i.wf = true)
    (hadd : ∀ imm, i ≠ .addStk imm) : i.HasRow m := by
  cases i with
  | neg32 d | neg64 d => exact .of_findRow rfl rfl (.dst d)
  | add32Imm d imm | add64Imm d imm | sub32Imm d imm | sub64Imm d imm | mul32Imm d imm | mul64Imm d imm
  | div32Imm d imm | div64Imm d imm | mod32Imm d imm | mod64Imm d imm | or32Imm d imm | or64Imm d imm
  | and32Imm d imm | and64Imm d imm | xor32Imm d imm | xor64Imm d imm | mov32Imm d imm | mov64Imm d imm
  | hor64Imm d imm | uhmul64Imm d imm | shmul64Imm d imm | sdiv32Imm d imm | sdiv64Imm d imm | srem32Imm d imm
  | srem64Imm d imm => exact .of_findRow rfl rfl (.dstImm d imm)
  | lsh32Imm d imm | rsh32Imm d imm | arsh32Imm d imm | lsh64Imm d imm | rsh64Imm d imm | arsh64Imm d imm =>
    exact .of_findRow rfl rfl (.shiftImm d (of_decide_eq_true hwf))
  | add32Reg d r | add64Reg d r | sub32Reg d r | sub64Reg d r | mul32Reg d r | mul64Reg d r | div32Reg d r
  | div64Reg d r | mod32Reg d r | mod64Reg d r | or32Reg d r | or64Reg d r | and32Reg d r | and64Reg d r
  | xor32Reg d r | xor64Reg d r | lsh32Reg d r | lsh64Reg d r | rsh32Reg d r | rsh64Reg d r | arsh32Reg d r
  | arsh64Reg d r | mov32Reg d r | mov64Reg d r | uhmul64Reg d r | shmul64Reg d r | sdiv32Reg d r
  | sdiv64Reg d r | srem32Reg d r | srem64Reg d r => exact .of_findRow rfl rfl (.dstReg d r)
  | ja off => exact .of_findRow rfl rfl (.jump off)
  | jeqImm l imm off | jneImm l imm off | jgtImm l imm off | jgeImm l imm off | jltImm l imm off
  | jleImm l imm off | jsgtImm l imm off | jsgeImm l imm off | jsltImm l imm off | jsleImm l imm off
  | jsetImm l imm off => exact .of_findRow rfl rfl (.jumpImm l imm off)
  | jeqReg l r off | jneReg l r off | jgtReg l r off | jgeReg l r off | jltReg l r off | jleReg l r off
  | jsgtReg l r off | jsgeReg l r off | jsltReg l r off | jsleReg l r off | jsetReg l r off =>
    exact .of_findRow rfl rfl (.jumpReg l r off)
  | ldxb d b off | ldxh d b off | ldxw d b off | ldxdw d b off => exact .of_findRow rfl rfl (.load d b off)
  | stbImm b off imm | sthImm b off imm | stwImm b off imm | stdwImm b off imm =>
    exact .of_findRow rfl rfl (.storeImm b off imm)
  | stbReg b off r | sthReg b off r | stwReg b off r | stdwReg b off r => exact .of_findRow rfl rfl (.storeReg b off r)
  | lddw d v => exact .of_findRow rfl rfl (.wide d v)
  | le16 d | be16 d => exact .of_findRow rfl rfl (.swap16 d)
  | le32 d | be32 d => exact .of_findRow rfl rfl (.swap32 d)
  | le64 d | be64 d => exact .of_findRow rfl rfl (.swap64 d)
  | callImm sel k => exact .of_findRow rfl rfl (.callImm sel k)
  | exit => exact .of_findRow rfl rfl .plain
  | callReg r =>
    cases hv : m.version with
    | v2 => exact .of_findRow (by simp only [encode, hv]; rfl) rfl (.callRegV2 r hv)
    | v1 =>
      have hr : r ≠ .r10 := by simpa [Instr.availableIn, hv] using hav
      exact .of_findRow (by simp only [encode, hv]; rfl) rfl (.callRegV1 hv hr)
  | addStk imm => exact absurd rfl (hadd imm)

/-! ### Decoding what is written -/

@[simp] theorem dstOperand_code (d : Dst) (k : Dst → Except Illegal Instr) : dstOperand d.code k = k d := by
  simp [dstOperand]

@[simp] theorem regOperand_code (r : Reg) (k : Reg → Except Illegal Instr) : regOperand r.code k = k r := by
  simp [regOperand]

theorem reg_code_le_nine {r : Reg} (hr : r ≠ .r10) : r.code.toNat ≤ 9 := by
  revert hr
  cases r <;> decide

theorem isLddwSecond_mkSlot (imm : Imm) : isLddwSecond (mkSlot 0#8 0#4 0#4 0#16 imm) = true := by
  have hhigh : (mkSlot 0#8 0#4 0#4 0#16 imm).extractLsb' 32 32 = 0#8 ++ 0#4 ++ 0#4 ++ 0#16 :=
    BitVec.extractLsb'_append_eq_left
  exact beq_iff_eq.mpr hhigh

section
variable {m : Isa} {op : BitVec 8} {f : Form} {i : Instr} {h : Slot} {tail : List Slot}

theorem Form.Writes.opcode_eq (hw : f.Writes m op i h tail) : opcodeField h = op := by
  cases hw <;> exact mkSlot_opcode ..

/-- What a format writes, it reads back, whatever slots follow. -/
theorem Form.Writes.build_eq (hw : f.Writes m op i h tail) (rest : List Slot) :
    f.build m h (tail ++ rest).head? = .ok i := by
  cases hw with
  | dst | dstImm | dstReg | jump | jumpImm | jumpReg | load | storeImm | storeReg | callImm | plain =>
    simp [Form.build, mkSlot_dst, mkSlot_src, mkSlot_offset, mkSlot_imm]
  | shiftImm d hmax => simp [Form.build, mkSlot_dst, mkSlot_imm, hmax]
  | wide d v =>
    have halves : v.extractLsb' 32 32 ++ v.extractLsb' 0 32 = v := BitVec.extractLsb'_append_extractLsb' (w := 32)
    simp [Form.build, buildLddw, mkSlot_dst, mkSlot_src, mkSlot_imm, isLddwSecond_mkSlot, halves]
  | swap16 d | swap32 d | swap64 d => simp [Form.build, buildSwap, mkSlot_dst, mkSlot_imm]
  | callRegV2 r hv => simp [Form.build, buildCallReg, hv, mkSlot_src]
  | @callRegV1 mk r hv hr =>
    have hle : r.code.toNat % 2 ^ 32 ≤ 9 := (Nat.mod_le _ _).trans (reg_code_le_nine hr)
    simpa [Form.build, buildCallReg, hv, mkSlot_imm] using hle

end

/-- `add_stk` has no row: it decodes by its `dst` field alone (R320). -/
theorem decodeSlots_encode_addStk {m : Isa} {imm : Imm} (hav : (Instr.addStk imm).availableIn m = true)
    (rest : List Slot) : decodeSlots m (encode m (.addStk imm) ++ rest) = some (.ok (.addStk imm)) := by
  have hslot : IsAddStkSlot m (mkSlot 0x07 m.addStkDst 0 0 imm) := by
    obtain ⟨hv, hdyn⟩ : m.version = .v2 ∧ m.dynamicStackFrames = true := by
      simpa [Instr.availableIn] using hav
    exact ⟨mkSlot_opcode .., isAddStk_iff.mpr ⟨hv, hdyn, mkSlot_dst ..⟩⟩
  calc decodeSlots m (encode m (.addStk imm) ++ rest)
      = some (.ok (.addStk (immField (mkSlot 0x07 m.addStkDst 0 0 imm)))) :=
        congrArg some (decode_of_isAddStkSlot hslot rest.head?)
    _ = some (.ok (.addStk imm)) := by rw [mkSlot_imm]

/-- Settles O11: the row of the instruction writes what the encoder writes, and its format reads that back. -/
theorem decodeInvertsEncode : Obligations.DecodeInvertsEncode := by
  intro m i rest hav hwf
  by_cases hadd : ∃ imm, i = .addStk imm
  · obtain ⟨imm, rfl⟩ := hadd
    exact decodeSlots_encode_addStk hav rest
  · obtain ⟨row, hrow, h, tail, henc, hw⟩ := Instr.hasRow hav hwf fun imm he => hadd ⟨imm, he⟩
    obtain ⟨hrowav, hnot⟩ := (opcodeTable_describes m row hrow i h tail hw).available_iff.mp hav
    rw [henc]
    exact congrArg some ((decode_of_mem hrow hw.opcode_eq hrowav hnot _).trans (hw.build_eq rest))

/-! ### The fields an operand format uses -/

/-- The fields an operand format reads (R76). -/
def Form.uses (v : Version) : Form → Uses
  | .dst _ => { dst := true }
  | .dstImm _ | .shiftImm _ _ | .swap _ _ _ => { dst := true, imm := true }
  | .dstReg _ => { dst := true, src := true }
  | .jump _ => { offset := true }
  | .jumpImm _ | .storeImm _ => { dst := true, offset := true, imm := true }
  | .jumpReg _ | .load _ | .storeReg _ => { dst := true, src := true, offset := true }
  | .wide _ => { dst := true, src := true, imm := true, second := true }
  | .callImm _ => { src := true, imm := true }
  | .callReg _ =>
    match v with
    | .v1 => { imm := true }
    | .v2 => { src := true }
  | .plain _ => {}

/-- `usesOf` names, byte by byte, the fields the row's format reads. -/
theorem usesOf_opcodeTable (v : Version) : ∀ row ∈ opcodeTable, usesOf v row.opcode = row.form.uses v := by
  cases v <;> decide

theorem usesOf_addStkOpcode (v : Version) : usesOf v addStkOpcode = { dst := true, imm := true } := by
  cases v <;> decide

/-- Opcode byte 0x18 alone reads the next slot (R70, R77). -/
theorem usesOf_second {v : Version} {op : BitVec 8} (h : (usesOf v op).second = true) : op = lddwOpcode := by
  by_contra hop
  have hne : op ≠ 0x18 := hop
  simp only [usesOf, if_neg hne] at h
  split_ifs at h
  cases v <;> cases h

/-- Two slots hold the same in the fields `u` names. -/
def Machine.Uses.Agree (u : Uses) (w w' : Slot) : Prop :=
  (u.dst = true → dstField w = dstField w') ∧ (u.src = true → srcField w = srcField w')
    ∧ (u.offset = true → offsetField w = offsetField w') ∧ (u.imm = true → immField w = immField w')

@[simp] theorem Machine.Uses.agree_mkSlot {u : Uses} {op : BitVec 8} {d s : BitVec 4} {off : Offset} {imm : Imm}
    {w : Slot} :
    u.Agree (mkSlot op d s off imm) w ↔
      (u.dst = true → d = dstField w) ∧ (u.src = true → s = srcField w) ∧ (u.offset = true → off = offsetField w)
        ∧ (u.imm = true → imm = immField w) := by
  simp only [Uses.Agree, mkSlot_dst, mkSlot_src, mkSlot_offset, mkSlot_imm]

theorem Machine.Uses.Agree.refl (u : Uses) (w : Slot) : u.Agree w w :=
  ⟨fun _ => rfl, fun _ => rfl, fun _ => rfl, fun _ => rfl⟩

theorem Machine.Uses.Agree.addStk {v : Version} {w w' : Slot} (hw : (usesOf v (opcodeField w)).Agree w w')
    (hop : opcodeField w = addStkOpcode) : dstField w = dstField w' ∧ immField w = immField w' := by
  rw [hop, usesOf_addStkOpcode] at hw
  obtain ⟨hdst, -, -, himm⟩ := hw
  exact ⟨hdst rfl, himm rfl⟩

/-- The fields that `add_stk` and `add64_imm` use tell them apart (R112, R320). -/
theorem isAddStkSlot_congr {m : Isa} {v : Version} {w w' : Slot} (hop : opcodeField w = opcodeField w')
    (hw : (usesOf v (opcodeField w)).Agree w w') : IsAddStkSlot m w ↔ IsAddStkSlot m w' := by
  unfold IsAddStkSlot
  rw [← hop]
  refine and_congr_right fun hadd => ?_
  obtain ⟨hdst, -⟩ := hw.addStk hadd
  rw [hdst]

/-- A format makes the same of two slots that agree in the fields it uses. -/
theorem Form.build_congr {m : Isa} {f : Form} {w w' : Slot} {x y : Option Slot}
    (hw : (f.uses m.version).Agree w w') (hx : (f.uses m.version).second = true → x = y) :
    f.build m w x = f.build m w' y := by
  obtain ⟨hdst, hsrc, hoff, himm⟩ := hw
  cases f with
  | dst mk => simp only [Form.build, hdst rfl]
  | dstImm mk | shiftImm max mk => simp only [Form.build, hdst rfl, himm rfl]
  | swap mk16 mk32 mk64 => simp only [Form.build, buildSwap, hdst rfl, himm rfl]
  | dstReg mk => simp only [Form.build, hdst rfl, hsrc rfl]
  | jump mk => simp only [Form.build, hoff rfl]
  | jumpImm mk | storeImm mk => simp only [Form.build, hdst rfl, hoff rfl, himm rfl]
  | jumpReg mk | load mk | storeReg mk => simp only [Form.build, hdst rfl, hsrc rfl, hoff rfl]
  | wide mk => simp only [Form.build, buildLddw, hdst rfl, hsrc rfl, himm rfl, hx rfl]
  | callImm mk => simp only [Form.build, hsrc rfl, himm rfl]
  | callReg mk =>
    cases hv : m.version with
    | v2 => simp only [Form.build, buildCallReg, hv, hsrc (by simp only [Form.uses, hv])]
    | v1 => simp only [Form.build, buildCallReg, hv, himm (by simp only [Form.uses, hv])]
  | plain i => rfl

/-- R76: the opcode byte and the fields it uses determine what a slot decodes to. -/
theorem decode_congr {m : Isa} {w w' : Slot} {x y : Option Slot} (hop : opcodeField w = opcodeField w')
    (hw : (usesOf m.version (opcodeField w)).Agree w w')
    (hx : (usesOf m.version (opcodeField w)).second = true → x = y) : decode m w x = decode m w' y := by
  by_cases hadd : IsAddStkSlot m w
  · obtain ⟨-, himm⟩ := hw.addStk hadd.1
    rw [decode_of_isAddStkSlot hadd, decode_of_isAddStkSlot ((isAddStkSlot_congr hop hw).mp hadd), himm]
  · have hadd' : ¬IsAddStkSlot m w' := mt (isAddStkSlot_congr hop hw).mpr hadd
    cases hrow : findRow (opcodeField w) opcodeTable with
    | none => rw [decode_of_findRow_eq_none hadd x hrow, decode_of_findRow_eq_none hadd' y (hop ▸ hrow)]
    | some row =>
      obtain ⟨hmem, hrowop⟩ := findRow_some hrow
      rw [← hrowop, usesOf_opcodeTable m.version row hmem] at hw hx
      rw [decode_of_findRow_eq_some hadd x hrow, decode_of_findRow_eq_some hadd' y (hop ▸ hrow),
        Form.build_congr hw hx]

/-- Settles O14: two slots assembled with one opcode byte agree in the fields whose contents are equal. -/
theorem unusedFieldsAreIgnored : Obligations.UnusedFieldsAreIgnored := by
  intro m op d d' s s' off off' imm imm' x y u hdst hsrc hoff himm hsecond
  refine decode_congr ?_ ?_ ?_
  · rw [mkSlot_opcode, mkSlot_opcode]
  · rw [mkSlot_opcode, Uses.agree_mkSlot, mkSlot_dst, mkSlot_src, mkSlot_offset, mkSlot_imm]
    exact ⟨hdst, hsrc, hoff, himm⟩
  · rwa [mkSlot_opcode]

/-! ### What decodes -/

theorem regOperand_ok_code {c : BitVec 4} {k : Reg → Except Illegal Instr} {i : Instr}
    (h : regOperand c k = .ok i) : ∃ r, r.code = c ∧ k r = .ok i := by
  obtain ⟨r, hr, h⟩ := regOperand_ok h
  exact ⟨r, reg_code_of_ofCode hr, h⟩

theorem dstOperand_ok_code {c : BitVec 4} {k : Dst → Except Illegal Instr} {i : Instr}
    (h : dstOperand c k = .ok i) : ∃ d, d.code = c ∧ k d = .ok i := by
  obtain ⟨d, hd, h⟩ := dstOperand_ok h
  exact ⟨d, dst_code_of_ofCode hd, h⟩

/-- A tested operand that decodes passed its test. -/
theorem ite_ok_eq_ok {c : Prop} [Decidable c] {i j : Instr} {e : Illegal}
    (h : (if c then .ok i else .error e : Except Illegal Instr) = .ok j) : c ∧ j = i := by
  split at h
  · exact ⟨‹c›, (Except.ok.inj h).symm⟩
  · cases h

/-- R69, R77: what a slot of `lddw` and the slot after it must hold. -/
theorem buildLddw_ok {mk : Dst → Word → Instr} {w : Slot} {second : Option Slot} {i : Instr}
    (h : buildLddw mk w second = .ok i) :
    ∃ d w2, d.code = dstField w ∧ second = some w2 ∧ srcField w = 0 ∧ w2.extractLsb' 32 32 = 0
      ∧ i = mk d (immField w2 ++ immField w) := by
  obtain ⟨d, hd, h⟩ := dstOperand_ok_code h
  cases second with
  | none => cases h
  | some w2 =>
    obtain ⟨⟨hsrc, hsecond⟩, h⟩ := ite_ok_eq_ok h
    exact ⟨d, w2, hd, rfl, hsrc, beq_iff_eq.mp hsecond, h⟩

theorem buildSwap_ok {mk16 mk32 mk64 : Dst → Instr} {w : Slot} {i : Instr}
    (h : buildSwap mk16 mk32 mk64 w = .ok i) :
    ∃ d, d.code = dstField w
      ∧ ((immField w = 16 ∧ i = mk16 d) ∨ (immField w = 32 ∧ i = mk32 d) ∨ (immField w = 64 ∧ i = mk64 d)) := by
  obtain ⟨d, hd, h⟩ := dstOperand_ok_code h
  refine ⟨d, hd, ?_⟩
  split at h
  · exact .inl ⟨‹_›, (Except.ok.inj h).symm⟩
  split at h
  · exact .inr (.inl ⟨‹_›, (Except.ok.inj h).symm⟩)
  split at h
  · exact .inr (.inr ⟨‹_›, (Except.ok.inj h).symm⟩)
  · cases h

/-- R74, R75, R298: `call_reg` holds its register in `src`, in v1 in the immediate and then no `r10`. -/
theorem buildCallReg_ok {m : Isa} {mk : Reg → Instr} {w : Slot} {i : Instr} (h : buildCallReg m mk w = .ok i) :
    ∃ r, i = mk r ∧ ((m.version = .v2 ∧ r.code = srcField w)
      ∨ (m.version = .v1 ∧ r ≠ .r10 ∧ r.code.setWidth 32 = immField w)) := by
  unfold buildCallReg at h
  cases hv : m.version with
  | v2 =>
    rw [hv] at h
    obtain ⟨r, hr, ⟨⟩⟩ := regOperand_ok_code h
    exact ⟨r, rfl, .inl ⟨rfl, hr⟩⟩
  | v1 =>
    rw [hv] at h
    by_cases hle : (immField w).toNat ≤ 9
    · obtain ⟨r, hr, ⟨⟩⟩ := regOperand_ok_code ((if_pos hle).symm.trans h)
      have hcode : r.code.setWidth 32 = immField w := by rw [hr]; bv_omega
      have hr10 : r ≠ .r10 := by
        rintro rfl
        rw [← hcode] at hle
        exact absurd hle (by decide)
      exact ⟨r, rfl, .inr ⟨rfl, hr10, hcode⟩⟩
    · cases (if_neg hle).symm.trans h

/-- Decoding inverts writing: an instruction that a slot decodes to is one the format writes, and what it writes
agrees with the slot in the fields the format uses. -/
theorem Form.writes_of_build {m : Isa} {op : BitVec 8} {f : Form} {w : Slot} {second : Option Slot} {i : Instr}
    (hb : f.build m w second = .ok i) :
    ∃ h tail, f.Writes m op i h tail ∧ (f.uses m.version).Agree h w := by
  cases f with
  | dst mk =>
    obtain ⟨d, hd, ⟨⟩⟩ := dstOperand_ok_code hb
    exact ⟨_, _, .dst d, by simp [Form.uses, hd]⟩
  | dstImm mk =>
    obtain ⟨d, hd, ⟨⟩⟩ := dstOperand_ok_code hb
    exact ⟨_, _, .dstImm d _, by simp [Form.uses, hd]⟩
  | shiftImm max mk =>
    obtain ⟨d, hd, hb⟩ := dstOperand_ok_code hb
    obtain ⟨hmax, rfl⟩ := ite_ok_eq_ok hb
    exact ⟨_, _, .shiftImm d hmax, by simp [Form.uses, hd]⟩
  | dstReg mk =>
    obtain ⟨d, hd, hb⟩ := dstOperand_ok_code hb
    obtain ⟨r, hr, ⟨⟩⟩ := regOperand_ok_code hb
    exact ⟨_, _, .dstReg d r, by simp [Form.uses, hd, hr]⟩
  | jump mk =>
    cases hb
    exact ⟨_, _, .jump _, by simp [Form.uses]⟩
  | jumpImm mk =>
    obtain ⟨l, hl, ⟨⟩⟩ := regOperand_ok_code hb
    exact ⟨_, _, .jumpImm l _ _, by simp [Form.uses, hl]⟩
  | jumpReg mk =>
    obtain ⟨l, hl, hb⟩ := regOperand_ok_code hb
    obtain ⟨r, hr, ⟨⟩⟩ := regOperand_ok_code hb
    exact ⟨_, _, .jumpReg l r _, by simp [Form.uses, hl, hr]⟩
  | load mk =>
    obtain ⟨d, hd, hb⟩ := dstOperand_ok_code hb
    obtain ⟨r, hr, ⟨⟩⟩ := regOperand_ok_code hb
    exact ⟨_, _, .load d r _, by simp [Form.uses, hd, hr]⟩
  | storeImm mk =>
    obtain ⟨b, hd, ⟨⟩⟩ := regOperand_ok_code hb
    exact ⟨_, _, .storeImm b _ _, by simp [Form.uses, hd]⟩
  | storeReg mk =>
    obtain ⟨b, hd, hb⟩ := regOperand_ok_code hb
    obtain ⟨r, hr, ⟨⟩⟩ := regOperand_ok_code hb
    exact ⟨_, _, .storeReg b _ r, by simp [Form.uses, hd, hr]⟩
  | wide mk =>
    obtain ⟨d, w2, hd, -, hsrc, -, rfl⟩ := buildLddw_ok hb
    have hlow : (immField w2 ++ immField w).extractLsb' 0 32 = immField w := BitVec.extractLsb'_append_eq_right
    exact ⟨_, _, .wide d _, by simp [Form.uses, hd, hsrc, hlow]⟩
  | swap mk16 mk32 mk64 =>
    obtain ⟨d, hd, ⟨himm, rfl⟩ | ⟨himm, rfl⟩ | ⟨himm, rfl⟩⟩ := buildSwap_ok hb
    · exact ⟨_, _, .swap16 d, by simp [Form.uses, hd, himm]⟩
    · exact ⟨_, _, .swap32 d, by simp [Form.uses, hd, himm]⟩
    · exact ⟨_, _, .swap64 d, by simp [Form.uses, hd, himm]⟩
  | callImm mk =>
    cases hb
    exact ⟨_, _, .callImm _ _, by simp [Form.uses]⟩
  | callReg mk =>
    obtain ⟨r, rfl, ⟨hv, hsrc⟩ | ⟨hv, hr, himm⟩⟩ := buildCallReg_ok hb
    · exact ⟨_, _, .callRegV2 r hv, by simp [Form.uses, hv, hsrc]⟩
    · exact ⟨_, _, .callRegV1 hv hr, by simp [Form.uses, hv, himm]⟩
  | plain i =>
    cases hb
    exact ⟨_, _, .plain, by simp [Form.uses]⟩

/-- What decodes is `add_stk`, or is written by an available row as a slot that agrees with the one decoded. -/
theorem decode_writes {m : Isa} {w : Slot} {second : Option Slot} {i : Instr} (hdec : decode m w second = .ok i) :
    (IsAddStkSlot m w ∧ i = .addStk (immField w))
      ∨ ∃ row ∈ opcodeTable, row.opcode = opcodeField w ∧ row.avail.inIsa m = true ∧ ¬IsAddStkSlot m w
          ∧ ∃ h tail, row.form.Writes m row.opcode i h tail ∧ (usesOf m.version (opcodeField w)).Agree h w := by
  by_cases hadd : IsAddStkSlot m w
  · rw [decode_of_isAddStkSlot hadd] at hdec
    exact .inl ⟨hadd, (Except.ok.inj hdec).symm⟩
  · obtain ⟨hop, hspecial, -⟩ | ⟨row, hrow, hav, hbuild⟩ := decode_ok hdec
    · exact absurd ⟨hop, hspecial⟩ hadd
    · obtain ⟨hmem, hrowop⟩ := findRow_some hrow
      obtain ⟨h, tail, hw, hagree⟩ := Form.writes_of_build (op := row.opcode) hbuild
      rw [← usesOf_opcodeTable m.version row hmem, hrowop] at hagree
      exact .inr ⟨row, hmem, hrowop, hav, hadd, h, tail, hw, hagree⟩

section
variable {m : Isa} {w : Slot} {second : Option Slot} {i : Instr}

/-- R73 to R75: what decodes is available, and its immediate is legal but for log 7. -/
theorem legal_of_decode (hdec : decode m w second = .ok i) :
    i.availableIn m = true ∧ (i.wf = true ∨ i.DividesByZero) := by
  obtain ⟨⟨-, hadd⟩, rfl⟩ | ⟨row, hmem, hrowop, hav, hnot, h, tail, hw, hagree⟩ := decode_writes hdec
  · obtain ⟨hv, hdyn, -⟩ := isAddStk_iff.mp hadd
    exact ⟨by simp [Instr.availableIn, hv, hdyn], .inl rfl⟩
  · have hdescribes := opcodeTable_describes m row hmem i h tail hw
    have hop : opcodeField h = opcodeField w := hw.opcode_eq.trans hrowop
    rw [← hop] at hagree
    exact ⟨hdescribes.available_iff.mpr ⟨hav, mt (isAddStkSlot_congr hop hagree).mp hnot⟩, hdescribes.wf_or⟩

/-- R61, R74: the encoding of what decodes has the opcode byte of the slot and agrees with it in the fields used. -/
theorem encode_agrees_of_decode (hdec : decode m w second = .ok i) :
    ∃ h tail, encode m i = h :: tail ∧ opcodeField h = opcodeField w
      ∧ (usesOf m.version (opcodeField w)).Agree h w := by
  obtain ⟨⟨hop, hadd⟩, rfl⟩ | ⟨row, hmem, hrowop, -, -, h, tail, hw, hagree⟩ := decode_writes hdec
  · obtain ⟨-, -, hdst⟩ := isAddStk_iff.mp hadd
    refine ⟨mkSlot addStkOpcode m.addStkDst 0 0 (immField w), [], rfl, (mkSlot_opcode ..).trans hop.symm, ?_⟩
    rw [hop, usesOf_addStkOpcode]
    simp [hdst]
  · exact ⟨h, tail, (opcodeTable_describes m row hmem i h tail hw).encode_eq, hw.opcode_eq.trans hrowop, hagree⟩

/-- R69, R77: a slot with `lddw`'s opcode byte decodes to `lddw` alone, and only before a slot that holds an
immediate. -/
theorem decode_lddwOpcode (hop : opcodeField w = lddwOpcode) (hdec : decode m w second = .ok i) :
    ∃ d w2, second = some w2 ∧ srcField w = 0 ∧ w2.extractLsb' 32 32 = 0
      ∧ i = .lddw d (immField w2 ++ immField w) := by
  obtain ⟨hadd, -⟩ | ⟨row, hrow, -, hbuild⟩ := decode_ok hdec
  · exact absurd (hop.symm.trans hadd) (by decide)
  · have hlddw : findRow lddwOpcode opcodeTable = some ⟨0x18, .v2OrFlag, .wide .lddw⟩ := rfl
    obtain rfl : row = ⟨0x18, .v2OrFlag, .wide .lddw⟩ := Option.some.inj (hrow.symm.trans (hop ▸ hlddw))
    obtain ⟨d, w2, -, hsecond⟩ := buildLddw_ok hbuild
    exact ⟨d, w2, hsecond⟩

theorem lddwOpcode_of_decode {d : Dst} {v : Word} (hdec : decode m w second = .ok (.lddw d v)) :
    opcodeField w = lddwOpcode := by
  obtain ⟨h, tail, henc, hop, -⟩ := encode_agrees_of_decode hdec
  obtain ⟨rfl, -⟩ := List.cons.inj henc
  rw [← hop, mkSlot_opcode]
  rfl

/-- An `lddw` decodes only from its pair of slots (R69, R77). -/
theorem lddw_pair_of_decode {d : Dst} {v : Word} (hdec : decode m w second = .ok (.lddw d v)) :
    srcField w = 0 ∧ ∃ w2, second = some w2 ∧ w2.extractLsb' 32 32 = 0 ∧ v = immField w2 ++ immField w := by
  obtain ⟨d', w2, hsecond, hsrc, hhigh, hi⟩ := decode_lddwOpcode (lddwOpcode_of_decode hdec) hdec
  obtain ⟨-, hv⟩ := Instr.lddw.inj hi
  exact ⟨hsrc, w2, hsecond, hhigh, hv⟩

end

/-- Settles O12: legality, the fields of the encoding, and the pair of `lddw`. -/
theorem decodedInstructionsAreLegal : Obligations.DecodedInstructionsAreLegal := by
  intro m w second i hdec
  obtain ⟨hav, hwf⟩ := legal_of_decode hdec
  refine ⟨hav, hwf, encode_agrees_of_decode hdec, fun d v hi => ?_⟩
  subst hi
  exact lddw_pair_of_decode hdec

/-! ### Unassigned opcode bytes (R72) -/

/-- Whatever stands here is not refused for its opcode byte. -/
def Assigned (r : Except Illegal Instr) : Prop := r ≠ .error .unassignedOpcode

theorem Assigned.ok (i : Instr) : Assigned (.ok i) := nofun

theorem Assigned.error {e : Illegal} (h : e ≠ .unassignedOpcode) : Assigned (.error e) :=
  fun he => h (Except.error.inj he)

theorem Assigned.ite {c : Prop} [Decidable c] {r r' : Except Illegal Instr} (h : Assigned r) (h' : Assigned r') :
    Assigned (if c then r else r') := by
  split
  · exact h
  · exact h'

theorem Assigned.dstOperand {c : BitVec 4} {k : Dst → Except Illegal Instr} (h : ∀ d, Assigned (k d)) :
    Assigned (dstOperand c k) := by
  unfold Sys2Proof.dstOperand
  split
  · exact h _
  · exact .error nofun

theorem Assigned.regOperand {c : BitVec 4} {k : Reg → Except Illegal Instr} (h : ∀ r, Assigned (k r)) :
    Assigned (regOperand c k) := by
  unfold Sys2Proof.regOperand
  split
  · exact h _
  · exact .error nofun

/-- No operand format refuses a slot for its opcode byte. -/
theorem Form.assigned_build (f : Form) (m : Isa) (w : Slot) (second : Option Slot) :
    Assigned (f.build m w second) := by
  cases f with
  | dst mk | dstImm mk => exact .dstOperand fun d => .ok _
  | shiftImm max mk => exact .dstOperand fun d => .ite (.ok _) (.error nofun)
  | dstReg mk | load mk => exact .dstOperand fun d => .regOperand fun r => .ok _
  | jumpImm mk | storeImm mk => exact .regOperand fun l => .ok _
  | jumpReg mk | storeReg mk => exact .regOperand fun l => .regOperand fun r => .ok _
  | wide mk =>
    cases second with
    | none => exact .dstOperand fun d => .error nofun
    | some w2 => exact .dstOperand fun d => .ite (.ok _) (.error nofun)
  | swap mk16 mk32 mk64 =>
    exact .dstOperand fun d => .ite (.ok _) (.ite (.ok _) (.ite (.ok _) (.error nofun)))
  | callReg mk =>
    simp only [Form.build, buildCallReg]
    cases m.version with
    | v2 => exact .regOperand fun r => .ok _
    | v1 => exact .ite (.regOperand fun r => .ok _) (.error nofun)
  | jump mk | callImm mk | plain i => exact .ok _

/-- R72: a slot is refused as unassigned exactly when its opcode byte has no row. -/
theorem decode_unassigned_iff {m : Isa} {w : Slot} {second : Option Slot} :
    decode m w second = .error .unassignedOpcode ↔ findRow (opcodeField w) opcodeTable = none := by
  by_cases hadd : IsAddStkSlot m w
  · have hrow : findRow addStkOpcode opcodeTable = some ⟨0x07, .both, .dstImm .add64Imm⟩ := rfl
    rw [decode_of_isAddStkSlot hadd, hadd.1, hrow]
    exact iff_of_false nofun nofun
  · cases hrow : findRow (opcodeField w) opcodeTable with
    | none => exact iff_of_true (decode_of_findRow_eq_none hadd second hrow) rfl
    | some row =>
      rw [decode_of_findRow_eq_some hadd second hrow]
      exact iff_of_false (Assigned.ite (row.form.assigned_build m w second) (.error nofun)) nofun

/-- Settles O13: no format refuses a slot for its opcode byte, so that refusal means that there is no row. -/
theorem unassignedOpcodesAreRefused : Obligations.UnassignedOpcodesAreRefused :=
  ⟨opcodeTable_nodup, rfl, fun _ _ _ => decode_unassigned_iff.trans findRow_eq_none⟩

/-! ### Words of the spec (R61, R71) -/

/-- Settles O10: each word has its row of the opcode map, or is `add_stk`'s. -/
theorem decodedWordsOfTheSpec : Obligations.DecodedWordsOfTheSpec := by
  unfold Obligations.DecodedWordsOfTheSpec
  decide

/-! ### The bytes of a slot (R66) -/

/-- The five fields of a slot are all of its bits (R61). -/
theorem mkSlot_fields (w : Slot) :
    mkSlot (opcodeField w) (dstField w) (srcField w) (offsetField w) (immField w) = w := by
  simp only [mkSlot, opcodeField, dstField, srcField, offsetField, immField]
  rw [BitVec.extractLsb'_append_extractLsb'_eq_extractLsb', BitVec.extractLsb'_append_extractLsb'_eq_extractLsb',
    BitVec.extractLsb'_append_extractLsb'_eq_extractLsb', BitVec.extractLsb'_append_extractLsb'_eq_extractLsb']
  · exact BitVec.extractLsb'_eq_self
  all_goals rfl

/-- Settles O15: the second byte holds `src` above `dst`, and the bytes of a field put together are the field. -/
theorem slotBytesRoundTrip : Obligations.SlotBytesRoundTrip := by
  intro w
  refine ⟨_, _, _, _, _, _, _, _, rfl, ?_, rfl, rfl, rfl, rfl, rfl, rfl, rfl, rfl⟩
  have hdst : (srcField w ++ dstField w).extractLsb' 0 4 = dstField w := BitVec.extractLsb'_append_eq_right
  have hsrc : (srcField w ++ dstField w).extractLsb' 4 4 = srcField w := BitVec.extractLsb'_append_eq_left
  have hoff : w.extractLsb' 40 8 ++ w.extractLsb' 32 8 = offsetField w :=
    BitVec.extractLsb'_append_extractLsb'_eq_extractLsb' rfl
  have himm : w.extractLsb' 24 8 ++ w.extractLsb' 16 8 ++ w.extractLsb' 8 8 ++ w.extractLsb' 0 8 = immField w := by
    rw [BitVec.extractLsb'_append_extractLsb'_eq_extractLsb', BitVec.extractLsb'_append_extractLsb'_eq_extractLsb',
      BitVec.extractLsb'_append_extractLsb'_eq_extractLsb']
    all_goals rfl
  rw [slotOfBytes, hdst, hsrc, hoff, himm]
  exact mkSlot_fields w

end Sys2Proof
end

section
/-! PROOFS. The linear scan and the verifier (30_encoding R70, R78, R84): which slots the scan skips, and which texts
the verifier accepts. -/

namespace Sys2Proof.Machine

/-! ### Second slots of an `lddw` (R70) -/

/-- A second slot stands after the slot the scan starts from. -/
theorem lt_of_mem_secondSlots {i j : Nat} {text : List Slot} (h : j ∈ secondSlots i text) : i < j := by
  induction i, text using secondSlots.induct with
  | case1 | case2 => cases h
  | case3 i w w2 rest hop ih =>
    rw [secondSlots, if_pos hop] at h
    obtain rfl | h := List.mem_cons.mp h
    · omega
    · have := ih h
      omega
  | case4 i w w2 rest hop ih =>
    rw [secondSlots, if_neg hop] at h
    have := ih h
    omega

/-- A slot is skipped exactly when the scan meets an `lddw` in the slot before it. -/
theorem mem_secondSlots_succ (i : Nat) (text : List Slot) (n : Nat) :
    i + n + 1 ∈ secondSlots i text ↔
      i + n ∉ secondSlots i text ∧ n + 1 < text.length ∧ ∃ w, text[n]? = some w ∧ opcodeField w = lddwOpcode := by
  induction i, text using secondSlots.induct generalizing n with
  | case1 | case2 => simp [secondSlots]
  | case3 i w w2 rest hop ih =>
    have hlow {j : Nat} (hj : j ≤ i + 2) : j ∉ secondSlots (i + 2) rest :=
      fun h => absurd (lt_of_mem_secondSlots h) (by omega)
    rw [secondSlots, if_pos hop]
    match n with
    | 0 => simp [hop, hlow]
    | 1 => simp [hlow]
    | n + 2 =>
      have hshift : i + (n + 2) = i + 2 + n := by omega
      have hne : i + 2 + n ≠ i + 1 := by omega
      have hne' : i + 2 + n + 1 ≠ i + 1 := by omega
      have hlen : n + 2 + 1 < (w :: w2 :: rest).length ↔ n + 1 < rest.length := by simp only [List.length_cons]; omega
      simpa only [hshift, hlen, List.mem_cons, hne, hne', false_or, List.getElem?_cons_succ] using ih n
  | case4 i w w2 rest hop ih =>
    rw [secondSlots, if_neg hop]
    match n with
    | 0 =>
      have hlow : i + 1 ∉ secondSlots (i + 1) (w2 :: rest) := fun h => Nat.lt_irrefl _ (lt_of_mem_secondSlots h)
      simp [hop, hlow]
    | n + 1 =>
      have hshift : i + (n + 1) = i + 1 + n := by omega
      simpa [hshift] using ih n

/-- Settles O59: `lddw` and its opcode byte go together, no other byte uses the next slot, and the scan skips a slot
for the `lddw` before it alone. -/
theorem instructionLengths : Obligations.InstructionLengths := by
  refine ⟨fun m w x i hdec => ⟨⟨fun hop => ?_, ?_⟩, ?_⟩, fun m w x y hop => ?_, fun text => ⟨fun h => ?_, fun n => ?_⟩⟩
  · obtain ⟨d, w2, -, -, -, hi⟩ := decode_lddwOpcode hop hdec
    exact ⟨d, _, hi⟩
  · rintro ⟨d, v, rfl⟩
    exact lddwOpcode_of_decode hdec
  · rintro d v rfl
    obtain ⟨-, w2, hsecond, -, hv⟩ := lddw_pair_of_decode hdec
    exact ⟨w2, hsecond, hv⟩
  · exact decode_congr rfl (.refl _ w) fun h => absurd (usesOf_second h) hop
  · exact absurd (lt_of_mem_secondSlots h) (Nat.lt_irrefl 0)
  · have hscan := mem_secondSlots_succ 0 text n
    rwa [Nat.zero_add] at hscan

/-! ### The checks of the verifier (R84) -/

/-- R203: a jump may land on a slot of the text that is no second slot. -/
theorem checkTarget_eq_none {nSlots : Nat} {seconds : List Nat} {t : Int} :
    checkTarget nSlots seconds t = none ↔ ∃ k : Nat, t = k ∧ k < nSlots ∧ k ∉ seconds := by
  cases t with
  | negSucc n => simp [checkTarget]
  | ofNat n =>
    by_cases hn : n < nSlots <;> by_cases hs : n ∈ seconds <;> simp [checkTarget, hn, hs]

/-- R84: a slot passes when it decodes to a well-formed instruction and its jump, if it is one, may land. -/
theorem checkSlot_eq_none {m : Isa} {nSlots : Nat} {seconds : List Nat} {i : Nat} {w : Slot} {second : Option Slot} :
    checkSlot m nSlots seconds i w second = none ↔
      ∃ ins, decode m w second = .ok ins ∧ ins.wf = true
        ∧ ∀ off, jumpOffset ins = some off → checkTarget nSlots seconds (jumpTarget i off) = none := by
  cases hdec : decode m w second with
  | error e => simp [checkSlot, hdec]
  | ok ins =>
    cases hwf : ins.wf with
    | false => simp [checkSlot, hdec, hwf]
    | true => cases hoff : jumpOffset ins <;> simp [checkSlot, hdec, hwf, hoff]

/-- The scan passes exactly when every slot that it does not skip passes its check. -/
theorem scanSlots_eq_none {m : Isa} {nSlots : Nat} {seconds : List Nat} {i : Nat} {text : List Slot} :
    scanSlots m nSlots seconds i text = none ↔
      ∀ n w, text[n]? = some w → i + n ∉ seconds → checkSlot m nSlots seconds (i + n) w text[n + 1]? = none := by
  induction text generalizing i with
  | nil => simp [scanSlots]
  | cons w rest ih =>
    have hfirst : scanSlots m nSlots seconds i (w :: rest) = none ↔
        (i ∉ seconds → checkSlot m nSlots seconds i w rest[0]? = none)
          ∧ scanSlots m nSlots seconds (i + 1) rest = none := by
      rw [← List.head?_eq_getElem?]
      by_cases hi : i ∈ seconds
      · simp [scanSlots, hi]
      · cases hc : checkSlot m nSlots seconds i w rest.head? <;> simp [scanSlots, hi, hc]
    have hshift (n : Nat) : i + 1 + n = i + (n + 1) := by omega
    rw [hfirst, ih]
    simp only [hshift]
    refine Iff.trans ?_ Nat.and_forall_add_one
    simp

/-- The verifier accepts exactly the texts that meet the checks of R84. -/
theorem verifier_eq_none {m : Isa} {text : List Slot} :
    verifier m text = none ↔ 0 < text.length ∧
      ∀ n w, text[n]? = some w → n ∉ secondSlots 0 text →
        ∃ i, decode m w text[n + 1]? = .ok i ∧ i.wf = true
          ∧ ∀ off, jumpOffset i = some off →
              ∃ k : Nat, (n : Int) + 1 + off.toInt = k ∧ k < text.length ∧ k ∉ secondSlots 0 text := by
  cases text with
  | nil => simp [verifier]
  | cons w rest =>
    simp only [verifier, scanSlots_eq_none, Nat.zero_add, checkSlot_eq_none, checkTarget_eq_none, jumpTarget]
    exact (and_iff_right (Nat.succ_pos _)).symm

/-- Settles O16: what the verifier checks, and the availability of whatever decodes. -/
theorem verifiedProgramsDecodeAndJumpInside : Obligations.VerifiedProgramsDecodeAndJumpInside := by
  intro m text hver
  obtain ⟨hlen, hslots⟩ := verifier_eq_none.mp hver
  refine ⟨hlen, fun n w hw hn => ?_⟩
  obtain ⟨i, hdec, hwf, hjump⟩ := hslots n w hw hn
  obtain ⟨hav, -⟩ := legal_of_decode hdec
  exact ⟨i, hdec, hwf, hav, hjump⟩

/-- Settles O58: the verifier checks nothing else. -/
theorem textsThatMeetTheChecksAreAccepted : Obligations.TextsThatMeetTheChecksAreAccepted :=
  fun _ _ hlen hslots => verifier_eq_none.mpr ⟨hlen, hslots⟩

end Sys2Proof.Machine
end

section
/-! PROOFS. The ALU (40_alu) and the high products (41_alu_pqr): the shapes of an ALU instruction, the values of its
operands, and the result of each instruction. -/

namespace Sys2Proof.Machine

/-! ### Widening (R103) -/

@[simp] theorem widen_setWidth (e : Ext) (r : BitVec 32) : (widen e r).setWidth 32 = r := by
  cases e with
  | sext =>
    refine BitVec.eq_of_getLsbD_eq fun j hj => ?_
    have hj' : j < 64 := by omega
    simp only [widen, BitVec.getLsbD_setWidth, BitVec.getLsbD_signExtend, hj, hj', decide_true, Bool.true_and,
      if_true]
  | zext => simp [widen]

theorem upperHalf_widen (e : Ext) (r : BitVec 32) : UpperHalf e (widen e r) := by
  intro j hlo hhi
  have hj : ¬j < 32 := by omega
  cases e with
  | sext =>
    rw [widen, BitVec.getLsbD_signExtend, BitVec.getLsbD_signExtend]
    simp [hhi, hj, BitVec.msb_eq_getLsbD_last]
  | zext => simp [widen, BitVec.getLsbD_of_ge r j hlo]

/-! ### The shapes of an ALU instruction (R100 to R102, R105, R107) -/

section
variable {s : State} {d : Dst} {op : Alu32Op}

theorem State.writeDst_writesOnly {P : Word → Prop} {v : Word} (hv : P v) :
    WritesOnly s d P (.next (s.writeDst d v)) :=
  ⟨s.writeDst d v, rfl, (State.writeDst_reg_self s d v).symm ▸ hv, rfl, fun _ hq => State.writeDst_reg_ne s v hq,
    fun _ => rfl, rfl, rfl, rfl, rfl, rfl, rfl⟩

theorem State.writeDst_writes32 {P : BitVec 32 → Prop} {r : BitVec 32} (hr : P r) :
    Writes32 s op d P (.next (s.writeDst d (s.widen32 op r))) :=
  State.writeDst_writesOnly ⟨(widen_setWidth _ r).symm ▸ hr, upperHalf_widen _ r⟩

theorem State.alu64_writesOnly {P : Word → Prop} {f : Word → Word} (hv : P (f (s.reg d.reg))) :
    WritesOnly s d P (s.alu64 d f) :=
  State.writeDst_writesOnly hv

theorem State.alu32_writes32 {P : BitVec 32 → Prop} {f : BitVec 32 → BitVec 32}
    (hr : P (f (low32 (s.reg d.reg)))) : Writes32 s op d P (s.alu32 op d f) :=
  State.writeDst_writes32 hr

theorem State.div64_writesOnly {P : Word → Prop} {f : Word → Except RunFault Word}
    (hf : ∃ v, f (s.reg d.reg) = .ok v ∧ P v) : WritesOnly s d P (s.div64 d f) := by
  obtain ⟨v, hok, hv⟩ := hf
  rw [State.div64, hok]
  exact State.writeDst_writesOnly hv

theorem State.div32_writes32 {P : BitVec 32 → Prop} {f : BitVec 32 → Except RunFault (BitVec 32)}
    (hf : ∃ r, f (low32 (s.reg d.reg)) = .ok r ∧ P r) : Writes32 s op d P (s.div32 op d f) := by
  obtain ⟨r, hok, hr⟩ := hf
  rw [State.div32, hok]
  exact State.writeDst_writes32 hr

theorem State.div64_faults {e : RunFault} {f : Word → Except RunFault Word} (hf : f (s.reg d.reg) = .error e) :
    Faults s e (s.div64 d f) := by
  rw [State.div64, hf]
  rfl

theorem State.div32_faults {e : RunFault} {f : BitVec 32 → Except RunFault (BitVec 32)}
    (hf : f (low32 (s.reg d.reg)) = .error e) : Faults s e (s.div32 op d f) := by
  rw [State.div32, hf]
  rfl

end

/-! ### Operands: immediates, low halves and shift counts -/

@[simp] theorem toInt_sextImm (imm : Imm) : (sextImm imm).toInt = imm.toInt :=
  BitVec.toInt_signExtend_of_le (by decide)

theorem sextImm_ne_zero {imm : Imm} (h : imm ≠ 0) : sextImm imm ≠ 0 := fun h0 =>
  h (BitVec.eq_of_toInt_eq (by rw [← toInt_sextImm, h0]; rfl))

theorem getLsbD_sextImm (imm : Imm) {j : Nat} (hj : j < 64) : (sextImm imm).getLsbD j = immBit imm j := by
  simp only [sextImm, immBit, BitVec.getLsbD_signExtend, hj, decide_true, Bool.true_and]
  split
  case isTrue hlow => rw [Nat.min_eq_left (by omega)]
  case isFalse hhigh => rw [Nat.min_eq_right (by omega), BitVec.msb_eq_getLsbD_last]

theorem getLsbD_low32 (v : Word) {j : Nat} (hj : j < 32) : (low32 v).getLsbD j = v.getLsbD j := by
  simp [low32, hj]

theorem toNat_low32 (v : Word) : (low32 v).toNat = v.toNat % 2 ^ 32 := BitVec.toNat_setWidth 32 v

theorem low32_eq_extractLsb' (v : Word) : low32 v = v.extractLsb' 0 32 := BitVec.setWidth_eq_extractLsb' (by decide)

theorem count64_eq_mod (v : Word) : count64 v = v.toNat % 64 := by
  rw [count64, BitVec.toNat_and]
  exact Nat.and_two_pow_sub_one_eq_mod v.toNat 6

theorem count32_eq_mod (v : Word) : count32 v = v.toNat % 32 := by
  rw [count32, BitVec.toNat_and]
  exact Nat.and_two_pow_sub_one_eq_mod v.toNat 5

/-! ### Sum, difference, product and negation (R104) -/

/-- A word of `w` bits stands for an integer modulo `2^w` (R104). -/
def Denotes {w : Nat} (v : BitVec w) (n : Int) : Prop := (v.toNat : Int) = n % 2 ^ w

section
variable {w : Nat} {a b : BitVec w} {m n : Int}

theorem denotes_iff_eq_ofInt : Denotes a n ↔ a = BitVec.ofInt w n := by
  have hpos : (0 : Int) < 2 ^ w := by positivity
  have hnat : ((BitVec.ofInt w n).toNat : Int) = n % 2 ^ w := by
    rw [BitVec.toNat_ofInt]
    push_cast
    exact Int.toNat_of_nonneg (Int.emod_nonneg n hpos.ne')
  rw [Denotes, ← hnat, Int.natCast_inj, BitVec.toNat_inj]

theorem denotes_toNat (v : BitVec w) : Denotes v v.toNat := denotes_iff_eq_ofInt.mpr (by simp)
theorem denotes_toInt (v : BitVec w) : Denotes v v.toInt := denotes_iff_eq_ofInt.mpr (by simp)

theorem Denotes.add (ha : Denotes a m) (hb : Denotes b n) : Denotes (a + b) (m + n) := by
  rw [denotes_iff_eq_ofInt] at *
  rw [ha, hb, BitVec.ofInt_add]

theorem Denotes.mul (ha : Denotes a m) (hb : Denotes b n) : Denotes (a * b) (m * n) := by
  rw [denotes_iff_eq_ofInt] at *
  rw [ha, hb, BitVec.ofInt_mul]

theorem Denotes.zero_sub (ha : Denotes a m) : Denotes (0 - a) (-m) := by
  rw [denotes_iff_eq_ofInt] at *
  rw [ha, BitVec.ofInt_neg]
  exact BitVec.zero_sub _

theorem Denotes.sub (ha : Denotes a m) (hb : Denotes b n) : Denotes (a - b) (m - n) := by
  rw [denotes_iff_eq_ofInt] at *
  rw [ha, hb, Int.sub_eq_add_neg, BitVec.ofInt_add, BitVec.ofInt_neg, BitVec.sub_eq_add_neg]

end

theorem denotes_sextImm (imm : Imm) : Denotes (sextImm imm) imm.toInt :=
  toInt_sextImm imm ▸ denotes_toInt (sextImm imm)

theorem denotes_low32 (v : Word) : Denotes (low32 v) v.toNat := congrArg Nat.cast (toNat_low32 v)

/-- Settles O17. -/
theorem arith64Results : Obligations.Arith64Results := by
  intro s d r imm
  have ha := denotes_toNat (s.reg d.reg)
  have hb := denotes_toNat (s.reg r)
  have hc := denotes_sextImm imm
  simp only [exec, execAdd64Reg, execAdd64Imm, execSub64Reg, execSub64Imm, execMul64Reg, execMul64Imm]
  exact ⟨State.alu64_writesOnly (ha.add hb), State.alu64_writesOnly (ha.add hc),
    State.alu64_writesOnly (ha.sub hb), State.alu64_writesOnly (ha.sub hc),
    State.alu64_writesOnly (ha.mul hb), State.alu64_writesOnly (ha.mul hc)⟩

/-- Settles O18. -/
theorem arith32Results : Obligations.Arith32Results := by
  intro s d r imm
  have ha := denotes_low32 (s.reg d.reg)
  have hb := denotes_low32 (s.reg r)
  have hc := denotes_toInt imm
  simp only [exec, execAdd32Reg, execAdd32Imm, execSub32Reg, execSub32Imm, execMul32Reg, execMul32Imm]
  exact ⟨State.alu32_writes32 (ha.add hb), State.alu32_writes32 (ha.add hc),
    State.alu32_writes32 (ha.sub hb), State.alu32_writes32 (ha.sub hc),
    State.alu32_writes32 (ha.mul hb), State.alu32_writes32 (ha.mul hc)⟩

/-! ### Logic, bit by bit, and moves -/

/-- The immediate of `hor64` reaches bits 63:32 alone (R160). -/
theorem getLsbD_setWidth_shiftLeft_32 (imm : Imm) {j : Nat} (hj : j < 64) :
    (imm.setWidth 64 <<< 32).getLsbD j = (decide (32 ≤ j) && imm.getLsbD (j - 32)) := by
  have hdown : j - 32 < 64 := by omega
  simp only [BitVec.getLsbD_shiftLeft, BitVec.getLsbD_setWidth, hj, hdown, decide_true, Bool.true_and, ← decide_not,
    Nat.not_lt]

/-- Settles O20. -/
theorem negAndHorResults : Obligations.NegAndHorResults := by
  intro s d imm
  simp only [exec, execNeg64, execNeg32, execHor64Imm]
  refine ⟨State.alu64_writesOnly (denotes_toNat (s.reg d.reg)).zero_sub,
    State.alu32_writes32 (denotes_low32 (s.reg d.reg)).zero_sub, State.alu64_writesOnly fun j hj => ?_⟩
  rw [BitVec.getLsbD_or, getLsbD_setWidth_shiftLeft_32 imm hj]

/-- Settles O21. -/
theorem logic64Results : Obligations.Logic64Results := by
  intro s d r imm
  have himm {j : Nat} (hj : j < 64) := getLsbD_sextImm imm hj
  simp only [exec, execOr64Reg, execOr64Imm, execAnd64Reg, execAnd64Imm, execXor64Reg, execXor64Imm]
  exact ⟨State.alu64_writesOnly fun j _ => BitVec.getLsbD_or,
    State.alu64_writesOnly fun j hj => by rw [BitVec.getLsbD_or, himm hj],
    State.alu64_writesOnly fun j _ => BitVec.getLsbD_and,
    State.alu64_writesOnly fun j hj => by rw [BitVec.getLsbD_and, himm hj],
    State.alu64_writesOnly fun j _ => BitVec.getLsbD_xor,
    State.alu64_writesOnly fun j hj => by rw [BitVec.getLsbD_xor, himm hj]⟩

/-- Settles O22. -/
theorem logic32Results : Obligations.Logic32Results := by
  intro s d r imm
  have ha {j : Nat} (hj : j < 32) := getLsbD_low32 (s.reg d.reg) hj
  have hb {j : Nat} (hj : j < 32) := getLsbD_low32 (s.reg r) hj
  simp only [exec, execOr32Reg, execOr32Imm, execAnd32Reg, execAnd32Imm, execXor32Reg, execXor32Imm]
  exact ⟨State.alu32_writes32 fun j hj => by rw [BitVec.getLsbD_or, ha hj, hb hj],
    State.alu32_writes32 fun j hj => by rw [BitVec.getLsbD_or, ha hj],
    State.alu32_writes32 fun j hj => by rw [BitVec.getLsbD_and, ha hj, hb hj],
    State.alu32_writes32 fun j hj => by rw [BitVec.getLsbD_and, ha hj],
    State.alu32_writes32 fun j hj => by rw [BitVec.getLsbD_xor, ha hj, hb hj],
    State.alu32_writes32 fun j hj => by rw [BitVec.getLsbD_xor, ha hj]⟩

/-- Settles O23. -/
theorem moveResults : Obligations.MoveResults := by
  intro s d r imm
  simp only [exec, execMov64Reg, execMov64Imm, execMov32Reg, execMov32Imm]
  exact ⟨State.alu64_writesOnly rfl, State.alu64_writesOnly (toInt_sextImm imm),
    State.alu32_writes32 (toNat_low32 (s.reg r)), State.alu32_writes32 rfl⟩

/-! ### Shifts (R106)

Each is the arithmetic of its count at every width. -/

section
variable {w : Nat} {a : BitVec w} {n : Nat}

theorem toNat_shiftLeft_eq_mul : (a <<< n).toNat = a.toNat * 2 ^ n % 2 ^ w := by
  rw [BitVec.toNat_shiftLeft, Nat.shiftLeft_eq]

theorem toNat_ushiftRight_eq_div : (a >>> n).toNat = a.toNat / 2 ^ n := by
  rw [BitVec.toNat_ushiftRight, Nat.shiftRight_eq_div_pow]

theorem toInt_sshiftRight_eq_div : (a.sshiftRight n).toInt = a.toInt / 2 ^ n := by
  rw [BitVec.toInt_sshiftRight, Int.shiftRight_eq_div_pow]
  push_cast
  rfl

end

/-- Settles O24. The model does not mask an immediate count, so its clause needs no bound. -/
theorem shift64Results : Obligations.Shift64Results := by
  intro s d r imm
  rw [← count64_eq_mod]
  simp only [exec, execLsh64Reg, execLsh64Imm, execRsh64Reg, execRsh64Imm, execArsh64Reg, execArsh64Imm]
  exact ⟨State.alu64_writesOnly toNat_shiftLeft_eq_mul, State.alu64_writesOnly toNat_ushiftRight_eq_div,
    State.alu64_writesOnly toInt_sshiftRight_eq_div, fun _ =>
    ⟨State.alu64_writesOnly toNat_shiftLeft_eq_mul, State.alu64_writesOnly toNat_ushiftRight_eq_div,
      State.alu64_writesOnly toInt_sshiftRight_eq_div⟩⟩

/-- Settles O25, as O24. -/
theorem shift32Results : Obligations.Shift32Results := by
  intro s d r imm
  rw [← count32_eq_mod, ← low32_eq_extractLsb']
  simp only [exec, execLsh32Reg, execLsh32Imm, execRsh32Reg, execRsh32Imm, execArsh32Reg, execArsh32Imm]
  exact ⟨State.alu32_writes32 toNat_shiftLeft_eq_mul, State.alu32_writes32 toNat_ushiftRight_eq_div,
    State.alu32_writes32 toInt_sshiftRight_eq_div, fun _ =>
    ⟨State.alu32_writes32 toNat_shiftLeft_eq_mul, State.alu32_writes32 toNat_ushiftRight_eq_div,
      State.alu32_writes32 toInt_sshiftRight_eq_div⟩⟩

/-! ### Division (R105, R171) -/

section
variable {w : Nat} {pc : Int} {a b : BitVec w}

theorem quotU_of_ne_zero (hb : b ≠ 0) : ∃ v, quotU pc a b = .ok v ∧ v.toNat = a.toNat / b.toNat :=
  ⟨_, if_neg hb, Nat.mod_eq_of_lt ((Nat.div_le_self a.toNat b.toNat).trans_lt a.isLt)⟩

theorem remU_of_ne_zero (hb : b ≠ 0) : ∃ v, remU pc a b = .ok v ∧ v.toNat = a.toNat % b.toNat :=
  ⟨_, if_neg hb, Nat.mod_eq_of_lt ((Nat.mod_le a.toNat b.toNat).trans_lt a.isLt)⟩

theorem quotU_of_eq_zero (hb : b = 0) : quotU pc a b = .error (.divideByZero pc) := if_pos hb
theorem remU_of_eq_zero (hb : b = 0) : remU pc a b = .error (.divideByZero pc) := if_pos hb
theorem quotS_of_eq_zero (hb : b = 0) : quotS pc a b = .error (.divideByZero pc) := if_pos hb
theorem remS_of_eq_zero (hb : b = 0) : remS pc a b = .error (.divideByZero pc) := if_pos hb

end

theorem toNat_sextImm (imm : Imm) : (sextImm imm).toNat = immNat imm :=
  (Int.toNat_natCast _).symm.trans (congrArg Int.toNat (denotes_sextImm imm))

/-- Settles O26. -/
theorem unsignedDivision64Results : Obligations.UnsignedDivision64Results := by
  intro s d r imm
  rw [← toNat_sextImm]
  simp only [exec, execDiv64Reg, execDiv64Imm, execMod64Reg, execMod64Imm]
  exact ⟨fun hb => ⟨State.div64_writesOnly (quotU_of_ne_zero hb), State.div64_writesOnly (remU_of_ne_zero hb)⟩,
    fun himm => ⟨State.div64_writesOnly (quotU_of_ne_zero (sextImm_ne_zero himm)),
      State.div64_writesOnly (remU_of_ne_zero (sextImm_ne_zero himm))⟩⟩

/-- Settles O27. -/
theorem unsignedDivision32Results : Obligations.UnsignedDivision32Results := by
  intro s d r imm
  rw [← low32_eq_extractLsb', ← low32_eq_extractLsb']
  simp only [exec, execDiv32Reg, execDiv32Imm, execMod32Reg, execMod32Imm]
  exact ⟨fun hb => ⟨State.div32_writes32 (quotU_of_ne_zero hb), State.div32_writes32 (remU_of_ne_zero hb)⟩,
    fun himm => ⟨State.div32_writes32 (quotU_of_ne_zero himm), State.div32_writes32 (remU_of_ne_zero himm)⟩⟩

/-- Settles O28: each of the four divisions tests its divisor first, in every form. -/
theorem divideByZeroFaults : Obligations.DivideByZeroFaults := by
  intro s d r
  have himm : sextImm 0 = 0 := rfl
  simp only [← low32_eq_extractLsb', List.forall_mem_cons, List.not_mem_nil, false_imp_iff, implies_true, and_true,
    exec, execDiv64Reg, execMod64Reg, execSdiv64Reg, execSrem64Reg, execDiv32Reg, execMod32Reg, execSdiv32Reg,
    execSrem32Reg, execDiv64Imm, execMod64Imm, execSdiv64Imm, execSrem64Imm, execDiv32Imm, execMod32Imm,
    execSdiv32Imm, execSrem32Imm]
  exact ⟨fun hb => ⟨State.div64_faults (quotU_of_eq_zero hb), State.div64_faults (remU_of_eq_zero hb),
      State.div64_faults (quotS_of_eq_zero hb), State.div64_faults (remS_of_eq_zero hb)⟩,
    fun hb => ⟨State.div32_faults (quotU_of_eq_zero hb), State.div32_faults (remU_of_eq_zero hb),
      State.div32_faults (quotS_of_eq_zero hb), State.div32_faults (remS_of_eq_zero hb)⟩,
    State.div64_faults (quotU_of_eq_zero himm), State.div64_faults (remU_of_eq_zero himm),
    State.div64_faults (quotS_of_eq_zero himm), State.div64_faults (remS_of_eq_zero himm),
    State.div32_faults (quotU_of_eq_zero rfl), State.div32_faults (remU_of_eq_zero rfl),
    State.div32_faults (quotS_of_eq_zero rfl), State.div32_faults (remS_of_eq_zero rfl)⟩

/-! ### High products (R173, R175) -/

theorem toNat_mulHighU (a b : Word) : (mulHighU a b).toNat = a.toNat * b.toNat / 2 ^ 64 := by
  have hprod : a.toNat * b.toNat < 2 ^ 64 * 2 ^ 64 := Nat.mul_lt_mul'' a.isLt b.isLt
  exact Nat.mod_eq_of_lt (Nat.div_lt_of_lt_mul hprod)

/-- The signed product lies between `-2^126` and `2^126`, so that its high half is a signed 64-bit value. -/
theorem toInt_mulHighS (a b : Word) : (mulHighS a b).toInt = a.toInt * b.toInt / 2 ^ 64 := by
  have hlo : -(2 ^ 126) ≤ a.toInt * b.toInt := BitVec.le_toInt_mul_toInt
  have hhi : a.toInt * b.toInt ≤ 2 ^ 126 := BitVec.toInt_mul_toInt_le
  refine BitVec.toInt_ofInt_eq_self (by decide) ?_ ?_ <;> omega

/-- Settles O29. -/
theorem highProductResults : Obligations.HighProductResults := by
  intro s d r imm
  rw [← toNat_sextImm, ← toInt_sextImm]
  simp only [exec, execUhmul64Reg, execUhmul64Imm, execShmul64Reg, execShmul64Imm]
  exact ⟨State.alu64_writesOnly (toNat_mulHighU _ _), State.alu64_writesOnly (toNat_mulHighU _ _),
    State.alu64_writesOnly (toInt_mulHighS _ _), State.alu64_writesOnly (toInt_mulHighS _ _)⟩

end Sys2Proof.Machine
end

section
/-! PROOFS. Signed division (41_alu_pqr R171): when the quotient exists, its value and that of the remainder, and the
fault where it does not. -/

namespace Sys2Proof.Machine

/-! ### The signed quotient and remainder of two words -/

section
variable {w : Nat} {pc : Int} {a b : BitVec w}

theorem ne_zero_of_toInt_ne_zero (hb : b.toInt ≠ 0) : b ≠ 0 := fun h => hb (h ▸ BitVec.toInt_zero)

/-- The most negative value by -1, read as signed numbers (R171, R404). -/
theorem divOverflows_iff (hw : 0 < w) :
    divOverflows a b = true ↔ a.toInt = -2 ^ (w - 1) ∧ b.toInt = -1 := by
  have hleast : a.toInt = -2 ^ (w - 1) ↔ a = BitVec.intMin w := by
    rw [← BitVec.toInt_intMin_of_pos hw, BitVec.toInt_inj]
  have hminusOne : b.toInt = -1 ↔ b = BitVec.allOnes w := by
    rw [← BitVec.toInt_inj, BitVec.toInt_allOnes, if_pos hw]
  simp [divOverflows, hleast, hminusOne]

/-- A quotient that does not overflow is a signed value of the width. -/
theorem toInt_ofInt_tdiv (ho : ¬divOverflows a b = true) :
    (BitVec.ofInt w (a.toInt.tdiv b.toInt)).toInt = a.toInt.tdiv b.toInt := by
  have hne : a ≠ BitVec.intMin w ∨ b ≠ -1#w := by
    rw [BitVec.neg_one_eq_allOnes]
    simpa [divOverflows, imp_iff_not_or] using ho
  rw [BitVec.toInt_ofInt, ← BitVec.toInt_sdiv, BitVec.toInt_sdiv_of_ne_or_ne a b hne]

/-- The remainder is always a signed value of the width: it is that of the library's `srem`. -/
theorem toInt_ofInt_sub_tdiv_mul :
    (BitVec.ofInt w (a.toInt - a.toInt.tdiv b.toInt * b.toInt)).toInt
      = a.toInt - a.toInt.tdiv b.toInt * b.toInt := by
  have hsrem : a.toInt - a.toInt.tdiv b.toInt * b.toInt = (a.srem b).toInt := by
    rw [BitVec.toInt_srem, Int.tmod_def, Int.mul_comm]
  rw [hsrem, BitVec.ofInt_toInt]

theorem quotS_of_not_overflows (hw : 0 < w) (hb : b.toInt ≠ 0) (ho : ¬(a.toInt = -2 ^ (w - 1) ∧ b.toInt = -1)) :
    ∃ v, quotS pc a b = .ok v ∧ v.toInt = a.toInt.tdiv b.toInt := by
  have ho' : ¬divOverflows a b = true := mt (divOverflows_iff hw).mp ho
  exact ⟨_, (if_neg (ne_zero_of_toInt_ne_zero hb)).trans (if_neg ho'), toInt_ofInt_tdiv ho'⟩

theorem remS_of_not_overflows (hw : 0 < w) (hb : b.toInt ≠ 0) (ho : ¬(a.toInt = -2 ^ (w - 1) ∧ b.toInt = -1)) :
    ∃ v, remS pc a b = .ok v ∧ v.toInt = a.toInt - a.toInt.tdiv b.toInt * b.toInt := by
  have ho' : ¬divOverflows a b = true := mt (divOverflows_iff hw).mp ho
  exact ⟨_, (if_neg (ne_zero_of_toInt_ne_zero hb)).trans (if_neg ho'), toInt_ofInt_sub_tdiv_mul⟩

theorem quotS_of_overflows (hw : 0 < w) (ha : a.toInt = -2 ^ (w - 1)) (hb : b.toInt = -1) :
    quotS pc a b = .error (.divideOverflow pc) := by
  have hb0 : b ≠ 0 := ne_zero_of_toInt_ne_zero (by omega)
  exact (if_neg hb0).trans (if_pos ((divOverflows_iff hw).mpr ⟨ha, hb⟩))

theorem remS_of_overflows (hw : 0 < w) (ha : a.toInt = -2 ^ (w - 1)) (hb : b.toInt = -1) :
    remS pc a b = .error (.divideOverflow pc) := by
  have hb0 : b ≠ 0 := ne_zero_of_toInt_ne_zero (by omega)
  exact (if_neg hb0).trans (if_pos ((divOverflows_iff hw).mpr ⟨ha, hb⟩))

end

/-! ### The eight signed forms -/

/-- Settles O30: the immediate is the divisor `sextImm imm`, whose signed value is its own. -/
theorem signedDivision64Results : Obligations.SignedDivision64Results := by
  intro s d r imm
  rw [← toInt_sextImm]
  simp only [exec, execSdiv64Reg, execSdiv64Imm, execSrem64Reg, execSrem64Imm]
  have hw : 0 < 64 := by decide
  exact ⟨fun hb ho => ⟨State.div64_writesOnly (quotS_of_not_overflows hw hb ho),
      State.div64_writesOnly (remS_of_not_overflows hw hb ho)⟩,
    fun hc ho => ⟨State.div64_writesOnly (quotS_of_not_overflows hw hc ho),
      State.div64_writesOnly (remS_of_not_overflows hw hc ho)⟩⟩

/-- Settles O31. -/
theorem signedDivision32Results : Obligations.SignedDivision32Results := by
  intro s d r imm
  rw [← low32_eq_extractLsb', ← low32_eq_extractLsb']
  simp only [exec, execSdiv32Reg, execSdiv32Imm, execSrem32Reg, execSrem32Imm]
  have hw : 0 < 32 := by decide
  exact ⟨fun hb ho => ⟨State.div32_writes32 (quotS_of_not_overflows hw hb ho),
      State.div32_writes32 (remS_of_not_overflows hw hb ho)⟩,
    fun hc ho => ⟨State.div32_writes32 (quotS_of_not_overflows hw hc ho),
      State.div32_writes32 (remS_of_not_overflows hw hc ho)⟩⟩

/-- Settles O32: the immediate 0xFFFFFFFF is -1 at both widths. -/
theorem divideOverflowFaults : Obligations.DivideOverflowFaults := by
  intro s d r
  have h64 : 0 < 64 := by decide
  have h32 : 0 < 32 := by decide
  have himm : (0xFFFFFFFF : Imm).toInt = -1 := by decide
  have hsext : (sextImm 0xFFFFFFFF).toInt = -1 := (toInt_sextImm _).trans himm
  simp only [← low32_eq_extractLsb', List.forall_mem_cons, List.not_mem_nil, false_imp_iff, implies_true, and_true,
    exec, execSdiv64Reg, execSrem64Reg, execSdiv32Reg, execSrem32Reg, execSdiv64Imm, execSrem64Imm, execSdiv32Imm,
    execSrem32Imm]
  exact ⟨fun ha => ⟨fun hb => ⟨State.div64_faults (quotS_of_overflows h64 ha hb),
        State.div64_faults (remS_of_overflows h64 ha hb)⟩,
      State.div64_faults (quotS_of_overflows h64 ha hsext), State.div64_faults (remS_of_overflows h64 ha hsext)⟩,
    fun ha => ⟨fun hb => ⟨State.div32_faults (quotS_of_overflows h32 ha hb),
        State.div32_faults (remS_of_overflows h32 ha hb)⟩,
      State.div32_faults (quotS_of_overflows h32 ha himm), State.div32_faults (remS_of_overflows h32 ha himm)⟩⟩

end Sys2Proof.Machine
end

section
/-! PROOFS. Jumps (42_jump): each condition in the words of its rule, how a jump ends, and the 23 jumps. -/

namespace Sys2Proof.Machine

/-! ### The conditions (R205 to R226) -/

section
variable {a b : Word}

theorem condEq_iff : condEq a b = true ↔ a = b := beq_iff_eq
theorem condNe_iff : condNe a b = true ↔ a ≠ b := bne_iff_ne
theorem condGt_iff : condGt a b = true ↔ b.toNat < a.toNat := decide_eq_true_iff
theorem condGe_iff : condGe a b = true ↔ b.toNat ≤ a.toNat := decide_eq_true_iff
theorem condLt_iff : condLt a b = true ↔ a.toNat < b.toNat := decide_eq_true_iff
theorem condLe_iff : condLe a b = true ↔ a.toNat ≤ b.toNat := decide_eq_true_iff
theorem condSgt_iff : condSgt a b = true ↔ b.toInt < a.toInt := decide_eq_true_iff
theorem condSge_iff : condSge a b = true ↔ b.toInt ≤ a.toInt := decide_eq_true_iff
theorem condSlt_iff : condSlt a b = true ↔ a.toInt < b.toInt := decide_eq_true_iff
theorem condSle_iff : condSle a b = true ↔ a.toInt ≤ b.toInt := decide_eq_true_iff

/-- The masked condition holds when some bit is set in both operands. -/
theorem condSet_iff : condSet a b = true ↔ ∃ j, j < 64 ∧ a.getLsbD j = true ∧ b.getLsbD j = true := by
  have hdiffer : a &&& b ≠ 0 ↔ ∃ j, j < 64 ∧ (a &&& b).getLsbD j = true := by
    simp [BitVec.eq_of_getLsbD_eq_iff]
  simp only [condSet, bne_iff_ne, hdiffer, BitVec.getLsbD_and, Bool.and_eq_true]

/-- An immediate is compared for equality through its signed value, which sign extension keeps (R201). -/
theorem condEq_iff_toInt_eq : condEq a b = true ↔ a.toInt = b.toInt := condEq_iff.trans BitVec.toInt_inj.symm
theorem condNe_iff_toInt_ne : condNe a b = true ↔ a.toInt ≠ b.toInt := condNe_iff.trans BitVec.toInt_inj.symm.not

theorem condSet_sextImm_iff {imm : Imm} :
    condSet a (sextImm imm) = true ↔ ∃ j, j < 64 ∧ a.getLsbD j = true ∧ immBit imm j = true :=
  condSet_iff.trans (exists_congr fun _ => and_congr_right fun hj => by rw [getLsbD_sextImm imm hj])

end

/-! ### How a jump ends (R200 to R202) -/

/-- A jump by `off` that is taken exactly when `c` holds, and changes nothing but the program counter. -/
def JumpsWhen (s : State) (off : Offset) (c : Prop) (o : Result) : Prop :=
  (c → MovesPcOnly s (s.pc + 1 + off.toInt) o) ∧ (¬c → MovesPcOnly s (s.pc + 1) o)

section
variable {s : State} {off : Offset} {c : Prop} {cond : Word → Word → Bool}

theorem State.setPc_movesPcOnly (s : State) (n : Int) : MovesPcOnly s n (.next (s.setPc n)) :=
  ⟨s.setPc n, rfl, rfl, fun _ => rfl, fun _ => rfl, rfl, rfl, rfl, rfl, rfl, rfl⟩

theorem State.branch_jumpsWhen {taken : Bool} (hc : taken = true ↔ c) : JumpsWhen s off c (s.branch taken off) := by
  cases taken with
  | true => exact ⟨fun _ => s.setPc_movesPcOnly _, fun hn => absurd (hc.mp rfl) hn⟩
  | false => exact ⟨fun h => absurd (hc.mpr h) Bool.false_ne_true, fun _ => s.setPc_movesPcOnly _⟩

theorem State.jumpImm_jumpsWhen {l : Reg} {imm : Imm} (hc : cond (s.reg l) (sextImm imm) = true ↔ c) :
    JumpsWhen s off c (s.jumpImm cond l imm off) :=
  State.branch_jumpsWhen hc

theorem State.jumpReg_jumpsWhen {l r : Reg} (hc : cond (s.reg l) (s.reg r) = true ↔ c) :
    JumpsWhen s off c (s.jumpReg cond l r off) :=
  State.branch_jumpsWhen hc

end

/-- Settles O33: each jump compares its left operand with `sextImm imm` or with a register, by the condition of its
rule; each arm of `exec` is one of the three ways to jump by definition. -/
theorem jumpResults : Obligations.JumpResults := by
  intro s l r imm off
  rw [← toInt_sextImm, ← toNat_sextImm]
  exact ⟨State.branch_jumpsWhen (iff_of_true rfl trivial),
    State.jumpImm_jumpsWhen condEq_iff_toInt_eq, State.jumpReg_jumpsWhen condEq_iff,
    State.jumpImm_jumpsWhen condNe_iff_toInt_ne, State.jumpReg_jumpsWhen condNe_iff,
    State.jumpImm_jumpsWhen condGt_iff, State.jumpReg_jumpsWhen condGt_iff,
    State.jumpImm_jumpsWhen condGe_iff, State.jumpReg_jumpsWhen condGe_iff,
    State.jumpImm_jumpsWhen condLt_iff, State.jumpReg_jumpsWhen condLt_iff,
    State.jumpImm_jumpsWhen condLe_iff, State.jumpReg_jumpsWhen condLe_iff,
    State.jumpImm_jumpsWhen condSgt_iff, State.jumpReg_jumpsWhen condSgt_iff,
    State.jumpImm_jumpsWhen condSge_iff, State.jumpReg_jumpsWhen condSge_iff,
    State.jumpImm_jumpsWhen condSlt_iff, State.jumpReg_jumpsWhen condSlt_iff,
    State.jumpImm_jumpsWhen condSle_iff, State.jumpReg_jumpsWhen condSle_iff,
    State.jumpImm_jumpsWhen condSet_sextImm_iff, State.jumpReg_jumpsWhen condSet_iff⟩

end Sys2Proof.Machine
end

section
/-! PROOFS. Byte swaps (44_byteswap): the bytes of a truncated and of a reversed word, the two directions at either
host byte order, and the six instructions. -/

namespace Sys2Proof.Machine

/-! ### The low bytes of a word, kept or reversed (R271) -/

/-- `v` is the low `n` bytes of `a`, with zeros above. -/
def KeepsLow (a : Word) (n : Nat) (v : Word) : Prop :=
  ∀ i, i < 8 → byteOf v i = if i < n then byteOf a i else 0

/-- `v` is the low `n` bytes of `a` in reverse order, with zeros above. -/
def ReversesLow (a : Word) (n : Nat) (v : Word) : Prop :=
  ∀ i, i < 8 → byteOf v i = if i < n then byteOf a (n - 1 - i) else 0

section
variable (a : Word) (n : Nat)

theorem wordBytes_getD (i : Nat) : (wordBytes n a).getD i 0 = if i < n then byteOf a i else 0 := by
  split
  next hi => rw [List.getD_eq_getElem _ _ (by simpa using hi), wordBytes_getElem, byteOf]
  next hi => exact List.getD_eq_default _ _ (by simpa using hi)

theorem wordBytes_reverse_getD (i : Nat) :
    (wordBytes n a).reverse.getD i 0 = if i < n then byteOf a (n - 1 - i) else 0 := by
  split
  next hi =>
    rw [List.getD_eq_getElem _ _ (by simpa using hi), List.getElem_reverse, wordBytes_getElem, wordBytes_length,
      byteOf]
  next hi => exact List.getD_eq_default _ _ (by simpa using hi)

theorem truncLow_keepsLow : KeepsLow a n (truncLow n a) :=
  fun i hi => (byteOf_bytesToWord _ hi).trans (wordBytes_getD a n i)

theorem swapLow_reversesLow : ReversesLow a n (swapLow n a) :=
  fun i hi => (byteOf_bytesToWord _ hi).trans (wordBytes_reverse_getD a n i)

/-! ### The two directions (R271; log 13): the host's own byte order keeps the bytes, the other one reverses them -/

theorem swapLe_spec (e : Endian) :
    (if e = .little then KeepsLow a n else ReversesLow a n) (swapLe e n a) := by
  cases e with
  | little => exact truncLow_keepsLow a n
  | big => exact swapLow_reversesLow a n

theorem swapBe_spec (e : Endian) :
    (if e = .little then ReversesLow a n else KeepsLow a n) (swapBe e n a) := by
  cases e with
  | little => exact swapLow_reversesLow a n
  | big => exact truncLow_keepsLow a n

end

/-- Settles O44: each of the six writes its direction at its size, by definition of its arm of `exec`. -/
theorem byteSwapResults : Obligations.ByteSwapResults := by
  intro s d
  have hle (n : Nat) : WritesOnly s d
      (if s.params.hostEndian = .little then KeepsLow (s.reg d.reg) n else ReversesLow (s.reg d.reg) n)
      (s.alu64 d (swapLe s.params.hostEndian n)) := State.alu64_writesOnly (swapLe_spec _ n _)
  have hbe (n : Nat) : WritesOnly s d
      (if s.params.hostEndian = .little then ReversesLow (s.reg d.reg) n else KeepsLow (s.reg d.reg) n)
      (s.alu64 d (swapBe s.params.hostEndian n)) := State.alu64_writesOnly (swapBe_spec _ n _)
  simp only [List.forall_mem_cons]
  exact ⟨⟨hle 2, hle 4, hle 8, List.forall_mem_nil _⟩, hbe 2, hbe 4, hbe 8, List.forall_mem_nil _⟩

end Sys2Proof.Machine
end

section
/-! PROOFS. Calls and returns (45_call_exit): the address of a slot, the entry of a function, what a return gives
back, and the calls and the exit in each of their cases. -/

namespace Sys2Proof.Machine

/-! ### The address of a slot (R294) -/

section
variable {s : State} {a : Word} {n : Nat}

theorem State.slotOf_eq_ok_iff :
    s.slotOf a = .ok n ↔ a.toNat = s.params.textVaddr.toNat + 8 * n ∧ n < s.params.program.length := by
  constructor
  · intro h
    obtain ⟨hn, ha⟩ := State.slotOf_ok h
    exact ⟨ha, hn⟩
  · rintro ⟨ha, hn⟩
    replace hn : n < s.nSlots := hn
    unfold State.slotOf
    rw [if_neg (by omega)]
    congr 1; omega

theorem State.slotOf_of_no_slot
    (h : ∀ n, n < s.params.program.length → a.toNat ≠ s.params.textVaddr.toNat + 8 * n) :
    s.slotOf a = .error (.callOutsideTextSegment s.pc a) := by
  cases hslot : s.slotOf a with
  | ok n =>
    obtain ⟨ha, hn⟩ := State.slotOf_eq_ok_iff.mp hslot
    exact absurd ha (h n hn)
  | error f => rw [State.slotOf_error hslot]

end

/-! ### The entry of a function (R291) -/

/-- The machine that has just entered the function at slot `n`. -/
def State.entered (s : State) (n : Nat) : State :=
  { s with
    frames := s.callFrame :: s.frames
    sp := s.calleeSp
    regs := s.regs.set .r10 s.calleeSp
    pc := n }

theorem State.entered_entersFunction (s : State) (n : Nat) : EntersFunction s n (.next (s.entered n)) :=
  ⟨s.entered n, rfl, rfl, rfl, rfl, s.regs.get_set_self .r10 s.calleeSp,
    fun _ hq => RegFile.get_set_ne s.regs s.calleeSp hq, fun _ => rfl, rfl, rfl, rfl, rfl⟩

section
variable {s : State} {sel : BitVec 4} {key : BitVec 32} {r : Reg} {n : Nat}

theorem State.callSlot_of_depth_lt (h : s.frames.length < s.params.maxCallDepth) (n : Nat) :
    s.callSlot n = .next (s.entered n) := by
  have hdepth : ¬s.params.maxCallDepth ≤ s.depth := Nat.not_le.mpr h
  unfold State.callSlot State.pushFrame
  rw [if_neg hdepth]
  rfl

theorem State.callSlot_of_le_depth (h : s.params.maxCallDepth ≤ s.frames.length) (n : Nat) :
    s.callSlot n = raise (.callDepthExceeded s.pc) s := by
  have hdepth : s.params.maxCallDepth ≤ s.depth := h
  unfold State.callSlot State.pushFrame
  rw [if_pos hdepth]
  rfl

/-! ### The cases of `call_imm` and `call_reg` (R297, R298), in the order of their tests (R414) -/

theorem exec_callImm_zero (key : BitVec 32) (s : State) : exec (.callImm 0 key) s = s.syscall key := rfl

theorem exec_callImm_of_function (hsel : sel ≠ 0) (hkey : lookupFunction key s.params.functions = some n) :
    exec (.callImm sel key) s = s.callSlot n := by
  show execCallImm sel key s = _
  simp only [execCallImm, if_neg hsel, hkey]

theorem exec_callImm_of_no_function (hsel : sel ≠ 0) (hkey : lookupFunction key s.params.functions = none) :
    exec (.callImm sel key) s = raise (.unsupportedInstruction s.pc) s := by
  show execCallImm sel key s = _
  simp only [execCallImm, if_neg hsel, hkey]

theorem exec_callReg_of_le_depth (h : s.params.maxCallDepth ≤ s.frames.length) (r : Reg) :
    exec (.callReg r) s = raise (.callDepthExceeded s.pc) s :=
  if_pos h

theorem exec_callReg_of_slotOf_ok (h : s.frames.length < s.params.maxCallDepth)
    (hslot : s.slotOf (s.reg r) = .ok n) : exec (.callReg r) s = s.callSlot n := by
  have hdepth : ¬s.params.maxCallDepth ≤ s.depth := Nat.not_le.mpr h
  show execCallReg r s = _
  simp only [execCallReg, if_neg hdepth, hslot]

theorem exec_callReg_of_slotOf_error {f : RunFault} (h : s.frames.length < s.params.maxCallDepth)
    (hslot : s.slotOf (s.reg r) = .error f) : exec (.callReg r) s = raise f s := by
  have hdepth : ¬s.params.maxCallDepth ≤ s.depth := Nat.not_le.mpr h
  show execCallReg r s = _
  simp only [execCallReg, if_neg hdepth, hslot]

end

/-- Settles O45. -/
theorem internalCallResults : Obligations.InternalCallResults := by
  intro s n hdepth
  have henter : EntersFunction s n (s.callSlot n) :=
    State.callSlot_of_depth_lt hdepth n ▸ s.entered_entersFunction n
  refine ⟨fun sel key hsel hkey => ?_, fun r ha hn => ?_⟩
  · rwa [exec_callImm_of_function hsel hkey]
  · rwa [exec_callReg_of_slotOf_ok hdepth (State.slotOf_eq_ok_iff.mpr ⟨ha, hn⟩)]

/-- Settles O46: a key is resolved before the depth is tested, and the depth before an address. -/
theorem callFaults : Obligations.CallFaults := by
  intro s sel key r
  have hraise (f : RunFault) : Faults s f (raise f s) := rfl
  refine ⟨fun hkey => ?_, fun hsel hkey => ?_, fun hfull => ⟨fun hsel hkey => ?_, ?_⟩, fun hdepth hslot => ?_⟩
  · rw [exec_callImm_zero, State.syscall_of_not_mem hkey]; exact hraise _
  · rw [exec_callImm_of_no_function hsel hkey]; exact hraise _
  · obtain ⟨n, hn⟩ := hkey
    rw [exec_callImm_of_function hsel hn, State.callSlot_of_le_depth hfull]; exact hraise _
  · rw [exec_callReg_of_le_depth hfull]; exact hraise _
  · rw [exec_callReg_of_slotOf_error hdepth (State.slotOf_of_no_slot hslot)]; exact hraise _

/-! ### Returns (R292, R299) -/

theorem exec_exit_of_frame {s : State} {f : Frame} {rest : List Frame} (h : s.frames = f :: rest) :
    exec .exit s = .next (s.popFrame f rest) := by
  show execExit s = _
  simp only [execExit, h]

theorem exec_exit_of_no_frame {s : State} (h : s.frames = []) :
    exec .exit s = .next { s with status := .exited (s.reg .r0) } := by
  show execExit s = _
  simp only [execExit, h]

/-- A return leaves the registers that no frame saves. -/
theorem RegFile.get_restore_unsaved (g : RegFile) (f : Frame) :
    ∀ q ∈ [Reg.r0, .r1, .r2, .r3, .r4, .r5], (g.restore f).get q = g.get q := by
  simp only [List.forall_mem_cons]
  exact ⟨rfl, rfl, rfl, rfl, rfl, rfl, List.forall_mem_nil _⟩

/-- Settles O48. -/
theorem exitResults : Obligations.ExitResults := fun s =>
  ⟨fun f rest hf => ⟨s.popFrame f rest, exec_exit_of_frame hf, rfl, rfl, rfl, rfl, rfl, rfl, rfl, rfl,
    s.regs.get_restore_unsaved f, fun _ => rfl, rfl, rfl, rfl, rfl⟩, exec_exit_of_no_frame⟩

/-! ### A call and its return (R295) -/

/-- The frame of a call gives back the registers that it saved. -/
theorem State.get_restore_callFrame (s : State) (g : RegFile) :
    ∀ q ∈ [Reg.r6, .r7, .r8, .r9, .r10], (g.restore s.callFrame).get q = s.reg q := by
  simp only [List.forall_mem_cons]
  exact ⟨rfl, rfl, rfl, rfl, rfl, List.forall_mem_nil _⟩

/-- A return from the stack pointer that a call set undoes the move of the call. -/
theorem State.callerSp_of_calleeSp {s u : State} (hparams : u.params = s.params) (hsp : u.sp = s.calleeSp) :
    u.callerSp = s.sp := by
  cases hdyn : s.params.isa.dynamicStackFrames with
  | false =>
    rw [State.callerSp_of_fixed (hparams ▸ hdyn), hsp, State.calleeSp_of_fixed hdyn, hparams]
    exact BitVec.add_sub_cancel _ _
  | true => rw [State.callerSp_of_dynamic (hparams ▸ hdyn), hsp, State.calleeSp_of_dynamic hdyn]

theorem State.callSlot_running {s c : State} {n : Nat} (h : s.callSlot n = .next c) (hc : c.status = .running) :
    c = s.entered n := by
  obtain ⟨u, hpush, rfl⟩ | ⟨f, -, rfl⟩ := State.callSlot_next h
  · obtain ⟨-, rfl⟩ := State.pushFrame_ok hpush
    rfl
  · cases hc

/-- An internal call after which the run goes on has entered a function. -/
theorem exec_internalCall_running {i : Instr} {s c : State} (hi : IsInternalCall i) (h : exec i s = .next c)
    (hc : c.status = .running) : ∃ n, c = s.entered n := by
  obtain ⟨sel, key, hsel, rfl⟩ | ⟨r, rfl⟩ := hi
  · obtain ⟨hzero, -⟩ | ⟨n, -, -, hcall⟩ | ⟨-, -, rfl⟩ := execCallImm_next h
    · exact absurd hzero hsel
    · exact ⟨n, State.callSlot_running hcall hc⟩
    · cases hc
  · obtain ⟨n, -, hcall⟩ | rfl | rfl := execCallReg_next h
    · exact ⟨n, State.callSlot_running hcall hc⟩
    · cases hc
    · cases hc

/-- Settles O49: the frames of the callee are those of its entry, so the return pops the frame of the call. -/
theorem returnRestoresTheCaller : Obligations.ReturnRestoresTheCaller := by
  intro i s c u t hi hcall hc _ hframes hparams hexit
  obtain ⟨n, rfl⟩ := exec_internalCall_running hi hcall hc
  rw [exec_exit_of_frame (f := s.callFrame) (rest := s.frames) hframes] at hexit
  obtain rfl := Host.Outcome.next.inj hexit
  exact ⟨rfl, rfl, s.get_restore_callFrame u.regs, u.regs.get_restore_unsaved s.callFrame,
    State.callerSp_of_calleeSp hparams⟩

end Sys2Proof.Machine
end

section
/-! PROOFS. Syscalls (45_call_exit R293): the bytes a host function writes, and what its answer does to the
machine. -/

namespace Sys2Proof.Machine

/-! ### The bytes a host function writes (R40, log 9) -/

section
variable {g : Regions} {m : Memory}

theorem hostWrites_append (pre post : List (Word × Byte)) :
    hostWrites g m (pre ++ post) = hostWrites g (hostWrites g m pre) post := by
  induction pre generalizing m with
  | nil => rfl
  | cons w pre ih =>
    simp only [List.cons_append, hostWrites]
    split
    · exact ih
    · exact ih

/-- An address outside the regions, or one that the host does not name, reads as before. -/
theorem read_hostWrites_of_unwritten (hm : m.wf = true) {ws : List (Word × Byte)} {a : Nat}
    (h : mapped g a = false ∨ ∀ u ∈ ws, u.1.toNat ≠ a) : (hostWrites g m ws).read a = m.read a := by
  induction ws generalizing m with
  | nil => rfl
  | cons w ws ih =>
    have hrest : mapped g a = false ∨ ∀ u ∈ ws, u.1.toNat ≠ a :=
      h.imp_right fun hne => (List.forall_mem_cons.mp hne).2
    simp only [hostWrites]
    split
    next hw =>
      have hne : a ≠ w.1.toNat := by
        rintro rfl
        exact h.elim (fun hout => by simp [hw] at hout) fun hne => (List.forall_mem_cons.mp hne).1 rfl
      rw [ih (Memory.write_wf hm _ _) hrest, Memory.read_write hm, if_neg hne]
    next => exact ih hm hrest

/-- Of several writes to one address of the regions the last counts. -/
theorem read_hostWrites_of_last (hm : m.wf = true) (pre : List (Word × Byte)) {u : Word × Byte}
    {post : List (Word × Byte)} (hlast : ∀ u' ∈ post, u'.1 ≠ u.1) (hu : mapped g u.1.toNat = true) :
    (hostWrites g m (pre ++ u :: post)).read u.1.toNat = u.2 := by
  have hpre : (hostWrites g m pre).wf = true := hostWrites_wf g hm pre
  have hpost : ∀ u' ∈ post, u'.1.toNat ≠ u.1.toNat := fun u' hu' heq =>
    hlast u' hu' (BitVec.eq_of_toNat_eq heq)
  rw [hostWrites_append, hostWrites, if_pos hu,
    read_hostWrites_of_unwritten (Memory.write_wf hpre _ _) (.inr hpost), Memory.read_write hpre, if_pos rfl]

end

/-! ### The host's answer -/

/-- A host function cannot change the registers above the arguments. -/
theorem RegFile.get_afterSyscall_of_above (g : RegFile) (r0 : Word) (draw : Nat) :
    ∀ q ∈ [Reg.r6, .r7, .r8, .r9, .r10], (g.afterSyscall r0 draw).get q = g.get q := by
  simp only [List.forall_mem_cons]
  exact ⟨rfl, rfl, rfl, rfl, rfl, List.forall_mem_nil _⟩

/-- Settles O47, by the host's answer. -/
theorem syscallResult : Obligations.SyscallResult := by
  intro s key hm hkey
  rw [exec_callImm_zero, State.syscall_of_mem hkey]
  cases hans : Config.hostAnswer s.draws key s.hostArgs s.mem with
  | ok r0 ws =>
    refine ⟨_, rfl, .inl ⟨r0, ws, hans, rfl, rfl, s.regs.get_afterSyscall_of_above r0 s.draws, rfl, rfl, rfl, rfl,
      rfl, hostWrites_wf _ hm ws, fun a ha => read_hostWrites_of_unwritten hm ha, ?_⟩⟩
    rintro pre u post rfl hlast hu
    exact read_hostWrites_of_last hm pre hlast hu
  | error e => exact ⟨_, rfl, .inr ⟨e, hans, rfl⟩⟩

end Sys2Proof.Machine
end

section
/-! PROOFS. The two ends of a run (60_exceptions R400, R412, R415, R419): what an instruction that ends the run has
done, and what the step that ran it has. -/

namespace Sys2Proof.Machine

/-! ### Instructions that end the run -/

section
variable {i : Instr} {s t : State}

/-- Of the nine effects a fault alone gives the status `Faulted`. -/
theorem exec_faulted {f : RunFault} (h : exec i s = .next t) (hr : s.status = .running)
    (ht : t.status = .faulted f) : f.isOf s ∧ t = s.faultWith f := by
  have hstatus : s.status ≠ .faulted f := by simp [hr]
  cases exec_next h with
  | fault f' hf' =>
    obtain rfl : f' = f := Status.faulted.inj ht
    exact ⟨hf', rfl⟩
  | ends => cases ht
  | writes | jumps | stores | calls | syscall | returns | addStk => exact absurd ht hstatus

/-- Of the nine effects an `exit` with no frame alone gives the status `Exited`. -/
theorem exec_exited {v : Word} (h : exec i s = .next t) (hr : s.status = .running)
    (ht : t.status = .exited v) :
    i = .exit ∧ s.frames = [] ∧ v = s.reg .r0 ∧ t = { s with status := .exited v } := by
  have hstatus : s.status ≠ .exited v := by simp [hr]
  cases exec_next h with
  | ends hi hframes =>
    obtain rfl : s.reg .r0 = v := Status.exited.inj ht
    exact ⟨hi, hframes, rfl, rfl⟩
  | fault => cases ht
  | writes | jumps | stores | calls | syscall | returns | addStk => exact absurd ht hstatus

end

/-! ### Steps that end the run -/

/-- A fault is the budget's, taken before the step is counted, or that of the instruction at `pc` (R412, R415). -/
theorem step_faulted {s t : State} {f : RunFault} (h : step s = .next t) (ht : t.status = .faulted f) :
    (f = .exceededMaxInstructions s.pc ∧ t = s.faultWith f) ∨ (f.isOf s ∧ t = s.tick.faultWith f) := by
  obtain ⟨hr, ⟨-, rfl⟩ | ⟨-, -, rfl⟩ | ⟨-, w, i, -, -, hexec⟩ | ⟨-, w, e, -, -, rfl⟩⟩ := step_next h
  · obtain rfl := Status.faulted.inj ht
    exact .inl ⟨rfl, rfl⟩
  · obtain rfl := Status.faulted.inj ht
    exact .inr ⟨⟨rfl, by simp⟩, rfl⟩
  · exact .inr (exec_faulted hexec hr ht)
  · obtain rfl := Status.faulted.inj ht
    exact .inr ⟨⟨rfl, by simp⟩, rfl⟩

/-- Settles O7. -/
theorem faultsArePrecise : Obligations.FaultsArePrecise := by
  intro s t f h ht
  rcases step_faulted h ht with ⟨rfl, rfl⟩ | ⟨⟨hpc, hne⟩, rfl⟩
  · exact ⟨rfl, by rw [if_pos rfl]; rfl⟩
  · exact ⟨hpc, by rw [if_neg hne]; rfl⟩

/-- The normal end of a run is the `exit` at `pc` with no frame (R419). -/
theorem step_exited {s t : State} {v : Word} (h : step s = .next t) (ht : t.status = .exited v) :
    (∃ w, s.fetch = some w ∧ decode s.params.isa w.1 w.2 = .ok .exit) ∧ s.frames = [] ∧ v = s.reg .r0
      ∧ t = { s.tick with status := .exited v } := by
  obtain ⟨hr, ⟨-, rfl⟩ | ⟨-, -, rfl⟩ | ⟨-, w, i, hfetch, hdecode, hexec⟩ | ⟨-, w, e, -, -, rfl⟩⟩ := step_next h
  · cases ht
  · cases ht
  · obtain ⟨rfl, hframes, hv, hend⟩ := exec_exited hexec hr ht
    exact ⟨⟨w, hfetch, hdecode⟩, hframes, hv, hend⟩
  · cases ht

/-- Settles O6. -/
theorem exitAtDepthZeroIsTheOnlyNormalEnd : Obligations.ExitAtDepthZeroIsTheOnlyNormalEnd := by
  refine ⟨fun s hframes => exec_exit_of_no_frame hframes, fun s t v h ht => ?_, fun s v hs => ?_⟩
  · obtain ⟨⟨w, hfetch, hdecode⟩, hframes, hv, hend⟩ := step_exited h ht
    obtain ⟨n, hpc, hslot, hsecond⟩ := State.fetch_some hfetch
    exact ⟨hv, hframes, hend, n, w.1, hpc, hslot, hsecond ▸ hdecode⟩
  · have hended : s.status ≠ .running := by simp [hs]
    rw [step_of_not_running hended, hs]

end Sys2Proof.Machine
end
